-- ==== Sys2Proof/Word.lean ====
section
/-!
DEFINITION. The word types of the ZD9440 and their plainest arithmetic. Register contents, masks and addresses are bit
vectors; counts, indices and field numbers are natural numbers (R7, R8, R14, R77).
-/
namespace Sys2Proof

/-- A 32-bit register word (R8, R14). -/
abbrev Word := BitVec 32

/-- A byte of memory (R7). -/
abbrev Byte := BitVec 8

/-- A 64-bit address (R15, R77). -/
abbrev Addr := BitVec 64

/-- One bit per lane, lane 0 in bit 0 (R26, R28). -/
abbrev Mask := BitVec 32

/-- Memory, and every other sparse store: pairs of a key and a value, keys rising, no default value listed. -/
abbrev Sparse (α : Type) := List (Nat × α)

end Sys2Proof
end

