-- ==== Sys2Proof/Config.lean ====
section
/-!
DEFINITION. What an implementation fixes and the free values: constants with no body, so that a claim about them holds
whatever they are. Each is named in a row of notes/assumptions.
-/
namespace Sys2Proof.Config

/-- Which of the results within its bound and its neighbours' a special function gives, by function number and argument (R61,
R63, R64). -/
opaque special : Nat → Nat → Nat

/-- Which of the actions the spec leaves open comes next, by the count of choices made (R19, R188, R237). -/
opaque choice : Nat → Nat

/-- How many nanoseconds pass when the model lets time pass, by the count of choices made. -/
opaque elapsed : Nat → Nat

/-- What the device's sensors, its tests of itself and the outside world answer, by the count of choices made. -/
opaque outside : Nat → Nat

/-- The least firmware version that the part record accepts (R470). -/
opaque leastFirmware : Nat

/-- The identity that the part record holds (R470). -/
opaque partIdentity : BitVec 128

/-- The bytes of what the device writes into memory in a layout that the spec leaves to the hardware, integrity tags among them,
and what its storage holds once it is given up: by the count of choices made and the place. -/
opaque hidden : Nat → Nat → Byte

end Sys2Proof.Config
end

