-- ==== Sys2Proof/Machine/Float.lean ====
section
/-!
DEFINITION. Number formats, exact values and rounding (R40 to R60, R232). A number is held as its bit pattern, a natural
number; arithmetic is done on exact values and rounded once.
-/
namespace Sys2Proof.Machine

/-- What the codes beyond the finite values of a format are (R40). -/
inductive Extremes where
  /-- An all-ones exponent holds the infinities and NaN. -/
  | ieee
  /-- Only S.1111.111 is NaN; there is no infinity. -/
  | nanOnly
  /-- Every code is finite. -/
  | none
deriving DecidableEq, Repr

/-- A floating-point format: exponent and fraction widths, bias, and its extreme codes (R40, R56). -/
structure Format where
  ebits : Nat
  mbits : Nat
  bias : Nat
  extremes : Extremes
deriving DecidableEq, Repr

def f32 : Format := ⟨8, 23, 127, .ieee⟩
def bf16 : Format := ⟨8, 7, 127, .ieee⟩
def f16 : Format := ⟨5, 10, 15, .ieee⟩
def f8e5 : Format := ⟨5, 2, 15, .ieee⟩
def f8e4 : Format := ⟨4, 3, 7, .nanOnly⟩
def f6e3 : Format := ⟨3, 2, 3, .none⟩
def f6e2 : Format := ⟨2, 3, 1, .none⟩
def f4 : Format := ⟨2, 1, 1, .none⟩
/-- The Kerf's narrow sum format (R56). -/
def e8m15 : Format := ⟨8, 15, 127, .ieee⟩

/-- The weight of the sign bit: one more than the largest magnitude code. -/
def Format.signWeight (F : Format) : Nat := 2 ^ (F.ebits + F.mbits)

/-- The width of a code. -/
def Format.width (F : Format) : Nat := F.ebits + F.mbits + 1

/-- The magnitude code of infinity, where the format has one. -/
def Format.infMag (F : Format) : Nat := (2 ^ F.ebits - 1) * 2 ^ F.mbits

/-- The magnitude code of the maximum finite value (R40). -/
def Format.maxMag (F : Format) : Nat :=
  match F.extremes with
  | .ieee => F.infMag - 1
  | .nanOnly => F.signWeight - 2
  | .none => F.signWeight - 1

/-- The canonical NaN (R43); +0 where the format has none (R53). -/
def Format.nan (F : Format) : Nat :=
  match F.extremes with
  | .ieee => F.infMag + 2 ^ (F.mbits - 1)
  | .nanOnly => F.signWeight - 1
  | .none => 0

/-- A code with a sign and a magnitude. -/
def Format.signed (F : Format) (neg : Bool) (mag : Nat) : Nat := if neg then F.signWeight + mag else mag

/-- The sign bit of a code. -/
def Format.negBit (F : Format) (c : Nat) : Bool := decide (c / F.signWeight % 2 = 1)

/-- The magnitude code. -/
def Format.mag (F : Format) (c : Nat) : Nat := c % F.signWeight

/-- The code is a NaN. -/
def Format.isNan (F : Format) (c : Nat) : Bool :=
  match F.extremes with
  | .ieee => decide (F.infMag < F.mag c)
  | .nanOnly => decide (F.mag c = F.signWeight - 1)
  | .none => false

/-- The code is an infinity. -/
def Format.isInf (F : Format) (c : Nat) : Bool :=
  match F.extremes with
  | .ieee => decide (F.mag c = F.infMag)
  | _ => false

/-- The code is a zero of either sign. -/
def Format.isZero (F : Format) (c : Nat) : Bool := decide (F.mag c = 0)

/-- The code is subnormal and not zero. -/
def Format.isSubnormal (F : Format) (c : Nat) : Bool := decide (0 < F.mag c ∧ F.mag c < 2 ^ F.mbits)

/-- An exact value: NaN, an infinity, or ± m × 2^e. -/
inductive Exact where
  | nan
  | inf (neg : Bool)
  | num (neg : Bool) (m : Nat) (e : Int)
deriving DecidableEq, Repr

/-- Exact +0. -/
def Exact.zero : Exact := .num false 0 0

/-- Exact 1. -/
def Exact.one : Exact := .num false 1 0

/-- An integer, exactly. -/
def Exact.ofInt (n : Int) : Exact := .num (decide (n < 0)) n.natAbs 0

/-- The exponent of the unit of the subnormals. -/
def Format.qmin (F : Format) : Int := 1 - (F.bias : Int) - (F.mbits : Int)

/-- The value of a code (R40). -/
def Format.value (F : Format) (c : Nat) : Exact :=
  if F.isNan c then .nan
  else if F.isInf c then .inf (F.negBit c)
  else
    let ex := F.mag c / 2 ^ F.mbits
    let fr := c % 2 ^ F.mbits
    if ex = 0 then .num (F.negBit c) fr F.qmin
    else .num (F.negBit c) (2 ^ F.mbits + fr) (F.qmin + (ex : Int) - 1)

/-- A rounding mode of MR.RM (R22). -/
inductive Rm where
  | rne | rtz | rdn | rup | rna | sr
deriving DecidableEq, Repr

/-- The rounding mode a code names; the reserved codes never reach a rounding (R23). -/
def Rm.ofCode : Nat → Rm
  | 0 => .rne | 1 => .rtz | 2 => .rdn | 3 => .rup | 4 => .rna | _ => .sr

/-- Whether a magnitude between lo and lo + 1 goes up: its part above lo is rem / 2^sh, not zero (R49). -/
def Rm.up (rm : Rm) (neg : Bool) (rnd lo rem sh : Nat) : Bool :=
  match rm with
  | .rne => decide (2 ^ sh < 2 * rem) || (decide (2 * rem = 2 ^ sh) && decide (lo % 2 = 1))
  | .rtz => false
  | .rdn => neg
  | .rup => !neg
  | .rna => decide (2 ^ sh ≤ 2 * rem)
  | .sr => decide (rnd < rem * 65536 / 2 ^ sh)

/-- m × 2^e as a multiple of 2^q, rounded (R49). -/
def roundTo (rm : Rm) (neg : Bool) (rnd : Nat) (m : Nat) (e q : Int) : Nat :=
  if q ≤ e then m * 2 ^ (e - q).toNat
  else
    let sh := (q - e).toNat
    let lo := m / 2 ^ sh
    let rem := m % 2 ^ sh
    if rem = 0 then lo else if rm.up neg rnd lo rem sh then lo + 1 else lo

/-- The exponent of the unit to which m × 2^e rounds, the exponent range unbounded above (R49). -/
def Format.quantum (F : Format) (m : Nat) (e : Int) : Int := max ((Nat.log2 m : Int) + e - F.mbits) F.qmin

/-- The magnitude code of m × 2^e rounded, with the exponent range unbounded above: it exceeds `maxMag` on overflow. -/
def Format.roundMag (F : Format) (rm : Rm) (neg : Bool) (rnd : Nat) (m : Nat) (e : Int) : Nat :=
  if m = 0 then 0
  else
    let q := F.quantum m e
    (q - F.qmin).toNat * 2 ^ F.mbits + roundTo rm neg rnd m e q

/-- Whether a rounded magnitude above the maximum goes to infinity (R50). -/
def Rm.overflowsToInf (rm : Rm) (neg : Bool) : Bool :=
  match rm with
  | .rtz => false
  | .rdn => neg
  | .rup => !neg
  | _ => true

/-- The code of an exact value, rounded, and clamped under SAT (R49, R50, R53; an infinity under SAT: R22, R53). -/
def Format.pack (F : Format) (rm : Rm) (sat : Bool) (rnd : Nat) : Exact → Nat
  | .nan => if sat then 0 else F.nan
  | .inf neg =>
    match F.extremes with
    | .ieee => F.signed neg (if sat then F.maxMag else F.infMag)
    | .nanOnly => if sat then F.signed neg F.maxMag else F.nan
    | .none => F.signed neg F.maxMag
  | .num neg m e =>
    let g := F.roundMag rm neg rnd m e
    if g ≤ F.maxMag then F.signed neg g
    else
      match F.extremes with
      | .ieee => F.signed neg (if rm.overflowsToInf neg && !sat then F.infMag else F.maxMag)
      | .nanOnly => if sat then F.signed neg F.maxMag else F.nan
      | .none => F.signed neg F.maxMag

/-- The rounded magnitude of a finite value passes the maximum (R50, R58). -/
def Format.overflows (F : Format) (rm : Rm) (rnd : Nat) : Exact → Bool
  | .num neg m e => decide (F.maxMag < F.roundMag rm neg rnd m e)
  | _ => false

/-- A subnormal code becomes a zero of the same sign (R44). -/
def Format.flush (F : Format) (c : Nat) : Nat := if F.isSubnormal c then F.signed (F.negBit c) 0 else c

/-- Negation, exactly. -/
def Exact.neg : Exact → Exact
  | .nan => .nan
  | .inf n => .inf (!n)
  | .num n m e => .num (!n) m e

/-- The value is a zero. -/
def Exact.isZero : Exact → Bool
  | .num _ 0 _ => true
  | _ => false

/-- The sign of a value, false for NaN. -/
def Exact.isNeg : Exact → Bool
  | .nan => false
  | .inf n => n
  | .num n _ _ => n

/-- The signed integer n with value n × 2^e of a number, aligned to a smaller exponent. -/
def alignTo (neg : Bool) (m : Nat) (e lo : Int) : Int :=
  let v : Int := m * 2 ^ (e - lo).toNat
  if neg then -v else v

/-- The exact sum; an exact zero of opposite signs is +0, or −0 under RDN (R49). -/
def Exact.add (rm : Rm) : Exact → Exact → Exact
  | .nan, _ => .nan
  | _, .nan => .nan
  | .inf a, .inf b => if a == b then .inf a else .nan
  | .inf a, _ => .inf a
  | _, .inf b => .inf b
  | .num na ma ea, .num nb mb eb =>
    let lo := min ea eb
    let s := alignTo na ma ea lo + alignTo nb mb eb lo
    if s = 0 then .num (if na == nb then na else rm == .rdn) 0 0
    else .num (decide (s < 0)) s.natAbs lo

/-- The exact difference. -/
def Exact.sub (rm : Rm) (a b : Exact) : Exact := a.add rm b.neg

/-- The exact product (R52); ∞ × 0 is NaN. -/
def Exact.mul : Exact → Exact → Exact
  | .nan, _ => .nan
  | _, .nan => .nan
  | .inf a, .inf b => .inf (a != b)
  | .inf a, .num nb mb _ => if mb = 0 then .nan else .inf (a != nb)
  | .num na ma _, .inf b => if ma = 0 then .nan else .inf (na != b)
  | .num na ma ea, .num nb mb eb => .num (na != nb) (ma * mb) (ea + eb)

/-- Extra bits a quotient or a root is carried to, beyond every format's and SR's 16. -/
def guardBits : Nat := 64

/-- The quotient, exact up to a last bit that says whether more follows. -/
def Exact.div : Exact → Exact → Exact
  | .nan, _ => .nan
  | _, .nan => .nan
  | .inf _, .inf _ => .nan
  | .inf a, .num nb _ _ => .inf (a != nb)
  | .num na _ _, .inf b => .num (na != b) 0 0
  | .num na ma ea, .num nb mb eb =>
    if mb = 0 then (if ma = 0 then .nan else .inf (na != nb))
    else
      let k := guardBits + Nat.log2 mb
      let q := ma * 2 ^ k / mb
      let more := if ma * 2 ^ k % mb = 0 then 0 else 1
      .num (na != nb) (2 * q + more) (ea - eb - k - 1)

/-- The largest r below 2^k with r² ≤ n, bit by bit. -/
def isqrtFrom (n : Nat) : Nat → Nat → Nat
  | 0, r => r
  | k + 1, r => if (r + 2 ^ k) * (r + 2 ^ k) ≤ n then isqrtFrom n k (r + 2 ^ k) else isqrtFrom n k r

/-- The integer square root. -/
def isqrt (n : Nat) : Nat := isqrtFrom n (Nat.log2 n / 2 + 1) 0

/-- The square root, exact up to a last bit that says whether more follows (R61, R62). -/
def Exact.sqrt : Exact → Exact
  | .nan => .nan
  | .inf n => if n then .nan else .inf false
  | .num n m e =>
    if m = 0 then .num n 0 0
    else if n then .nan
    else
      let pad := 2 * guardBits + (e % 2).toNat
      let r := isqrt (m * 2 ^ pad)
      let more := if r * r = m * 2 ^ pad then 0 else 1
      .num false (2 * r + more) ((e - pad) / 2 - 1)

/-- The order of two values, none when either is NaN; +0 equals −0. -/
def Exact.cmp : Exact → Exact → Option Ordering
  | .nan, _ => none
  | _, .nan => none
  | .inf a, .inf b => some (if a == b then .eq else if a then .lt else .gt)
  | .inf a, _ => some (if a then .lt else .gt)
  | _, .inf b => some (if b then .gt else .lt)
  | .num na ma ea, .num nb mb eb =>
    let lo := min ea eb
    some (compare (alignTo na ma ea lo) (alignTo nb mb eb lo))

/-- a < b, false when either is NaN. -/
def Exact.lt (a b : Exact) : Bool := a.cmp b == some .lt

/-- a ≤ b, false when either is NaN. -/
def Exact.le (a b : Exact) : Bool := a.cmp b == some .lt || a.cmp b == some .eq

/-- The order with −0 below +0, on values that are not NaN (R55). -/
def Exact.below (a b : Exact) : Bool :=
  a.lt b || (a.cmp b == some .eq && a.isNeg && !b.isNeg)

/-- The value rounded to an integral one, infinities and zeros kept (R158). -/
def Exact.integral (rm : Rm) (rnd : Nat) : Exact → Exact
  | .num n m e => .num n (roundTo rm n rnd m e 0) 0
  | x => x

/-- The value is an integer. -/
def Exact.isIntegral : Exact → Bool
  | .num _ m e => decide (0 ≤ e) || decide (m % 2 ^ (-e).toNat = 0)
  | _ => false

/-- The largest integer at or below a finite value; 0 for the others. -/
def Exact.floor : Exact → Int
  | .num n m e => let v := roundTo .rdn n 0 m e 0; if n then -(v : Int) else v
  | _ => 0

/-- An integer type: signed or not, and its width (R41). -/
structure IntType where
  signed : Bool
  width : Nat
deriving DecidableEq, Repr

/-- The least value of an integer type. -/
def IntType.least (t : IntType) : Int := if t.signed then -(2 ^ (t.width - 1) : Int) else 0

/-- The greatest value. -/
def IntType.greatest (t : IntType) : Int := if t.signed then 2 ^ (t.width - 1) - 1 else 2 ^ t.width - 1

/-- A value clamped into the type's range. -/
def IntType.clamp (t : IntType) (x : Int) : Int := max t.least (min t.greatest x)

/-- The low bits of an integer. -/
def wrap (w : Nat) (x : Int) : Nat := (x % (2 ^ w : Int)).toNat

/-- The value of an integer code. -/
def IntType.value (t : IntType) (c : Nat) : Int :=
  let u := c % 2 ^ t.width
  if t.signed && decide (2 ^ (t.width - 1) ≤ u) then (u : Int) - 2 ^ t.width else u

/-- A value converted to an integer type: rounded, clamped whatever SAT says, NaN to 0 (R53). -/
def IntType.convert (t : IntType) (rm : Rm) (rnd : Nat) : Exact → Nat
  | .nan => 0
  | .inf n => wrap t.width (if n then t.least else t.greatest)
  | .num n m e =>
    let v : Int := roundTo rm n rnd m e 0
    wrap t.width (t.clamp (if n then -v else v))

/-- Round to F32 under RNE: the arithmetic of the engines and of the fixed formulas. -/
def ne32 (x : Exact) : Nat := f32.pack .rne false 0 x

/-- F32 addition under RNE. -/
def add32 (a b : Nat) : Nat := ne32 ((f32.value a).add .rne (f32.value b))

/-- F32 subtraction under RNE. -/
def sub32 (a b : Nat) : Nat := ne32 ((f32.value a).sub .rne (f32.value b))

/-- F32 multiplication under RNE. -/
def mul32 (a b : Nat) : Nat := ne32 ((f32.value a).mul (f32.value b))

/-- F32 division under RNE. -/
def div32 (a b : Nat) : Nat := ne32 ((f32.value a).div (f32.value b))

/-- F32 square root under RNE. -/
def sqrt32 (a : Nat) : Nat := ne32 (f32.value a).sqrt

/-- F32 a × b + c, rounded once under RNE. -/
def fma32 (a b c : Nat) : Nat := ne32 (((f32.value a).mul (f32.value b)).add .rne (f32.value c))

/-- −a: the sign inverted, NaN canonical. -/
def neg32 (a : Nat) : Nat := ne32 (f32.value a).neg

/-- a < b on F32 codes, false on NaN. -/
def lt32 (a b : Nat) : Bool := (f32.value a).lt (f32.value b)

/-- a ≤ b on F32 codes, false on NaN. -/
def le32 (a b : Nat) : Bool := (f32.value a).le (f32.value b)

/-- The smaller or larger of two codes (R55): which operand is chosen (false the first), and whether they tie. NaN loses;
two NaNs choose the first. -/
def Format.choose (F : Format) (wantMax : Bool) (a b : Nat) : Bool × Bool :=
  if F.isNan a then (!F.isNan b, false)
  else if F.isNan b then (false, false)
  else if a = b then (false, true)
  else
    let x := F.value a
    let y := F.value b
    (if wantMax then x.below y else y.below x, false)

/-- FMIN or FMAX on codes (R55). -/
def Format.minMax (F : Format) (wantMax : Bool) (a b : Nat) : Nat :=
  if F.isNan a && F.isNan b then F.nan
  else if (F.choose wantMax a b).1 then b else a

/-- FSAT on codes: clamped to [+0, 1], −0 and NaN to +0 (R158). -/
def Format.unit (F : Format) (a : Nat) : Nat :=
  if F.isNan a || F.negBit a || F.isZero a then 0
  else if Exact.one.lt (F.value a) then F.bias * 2 ^ F.mbits
  else a

/-- The value of a block scale (R45): 0 none, 1 E8M0, 2 E5M3, 3 E3M5, 4 BF16. -/
def scaleValue (kind c : Nat) : Exact :=
  match kind with
  | 1 => if c % 256 = 255 then .nan else .num false 1 ((c % 256 : Nat) - 127 : Int)
  | 2 =>
    if c % 256 = 255 then .nan
    else if c % 256 / 8 = 0 then .num false (c % 8) (-17)
    else .num false (8 + c % 8) ((c % 256 / 8 : Nat) - 18 : Int)
  | 3 =>
    if c % 256 / 32 = 0 then .num false (c % 32) (-7)
    else .num false (32 + c % 32) ((c % 256 / 32 : Nat) - 8 : Int)
  | 4 => bf16.value (c % 65536)
  | _ => .one

/-- One round of the coordinate hash (R232). -/
def hashRound (k : Word) (h : Word × Word) : Word × Word :=
  let h0 := h.1 + h.2 + k
  let h1 := (h.2 ^^^ h0).rotateLeft 13
  (h0.rotateLeft 7 ^^^ h1, h1)

/-- CoordHash (R232). -/
def coordHash (seed : Nat) (row col : Nat) : Nat :=
  let h : Word × Word := (BitVec.ofNat 32 seed ^^^ BitVec.ofNat 32 row,
    BitVec.ofNat 32 (seed / 2 ^ 32) ^^^ BitVec.ofNat 32 col)
  let h := hashRound 0x4F1B6E93 h
  let h := hashRound 0xA3C50D27 h
  let h := hashRound 0x6D29B7F1 h
  let h := hashRound 0x1E84C5A9 h
  (h.1 ^^^ h.2).toNat

/-! Words of elements (R8, R22). -/

/-- The element width of MR.ET (R22). -/
def etWidth (et : Nat) : Nat := if et < 3 then 32 else if et < 7 then 16 else 8

/-- The number of elements in a word. -/
def etCount (et : Nat) : Nat := 32 / etWidth et

/-- The float format of MR.ET, where it is a float type. -/
def etFormat (et : Nat) : Format := if et = 3 then f16 else if et = 4 then bf16 else f32

/-- MR.ET is a float type. -/
def etFloat (et : Nat) : Bool := et == 2 || et == 3 || et == 4

/-- Element j of a word, w bits wide (R8). -/
def elem (w j : Nat) (x : Word) : Nat := x.toNat / 2 ^ (w * j) % 2 ^ w

/-- A plane's word holds an element of type MR.ET that is ±∞ or NaN (R73); an integer type has none. -/
def badPlane (et : Nat) (p : Word) : Bool :=
  let F := etFormat et
  etFloat et && (List.range (etCount et)).any fun j => let c := elem (etWidth et) j p; F.isNan c || F.isInf c

end Sys2Proof.Machine
end

