-- ==== Sys2Proof/Syntax.lean ====
section
/-!
DEFINITION. The instructions, micro-operations and events of the ZD9440: one constructor per row of the opcode table.
Instruction words are read by R78 and R90, microwords by R257 and R258; the events are the device's steps that no word
names (95_what_each_step_holds.md). A field is kept as the number the word holds; `WellFormed` says which numbers R79 to
R84 and the entries allow.
-/
namespace Sys2Proof

/-- One step of the part. `d a b f k la h p n tgt rcv imm m` are the fields of R78; `t i c` those of R257. -/
inductive Instr where
  /-- Writes the whole mode register of the issuing fragment from the 24-bit image, trapping ILLEGAL if reserved bits 23:14 are set (R104). -/
  | setm (m : Nat)
  /-- Branches the fragment on a lane predicate, splitting it into two fragments with a join record or overflow entry when the lanes disagree (R107). -/
  | bra (p : Nat) (n : Nat) (tgt : Nat) (rcv : Nat)
  /-- Branches the whole fragment on a uniform q predicate without ever splitting or waiting (R110). -/
  | bru (p : Nat) (n : Nat) (tgt : Nat) (rcv : Nat)
  /-- Continues the fragment at the 64-bit address in an even scalar pair, trapping ALIGN on a misaligned target (R111). -/
  | jmps (a : Nat)
  /-- Calls a PC-relative target for the lanes whose guard holds, splitting as BRA and pushing a return address on the link stack (R114). -/
  | call (p : Nat) (n : Nat) (tgt : Nat)
  /-- Calls the 64-bit address in a scalar pair for the whole fragment, pushing the return address (R115). -/
  | calls (a : Nat)
  /-- Gives the fragment's open innermost join its address PC + 4 × rcv (R109). -/
  | sync (rcv : Nat)
  /-- Raises a trap with cause TRAP and the 18-bit software code as subcode (R119). -/
  | trap (imm : Nat)
  /-- Marks a pre-emption point whose live map names the state to save; the fragment stops here when a pre-emption request is pending (R123). -/
  | ppt (imm : Nat)
  /-- Opens a register scope of n registers rounded to 4, zeroing them, and waits for register-file space if needed (R127). -/
  | rscope (imm : Nat)
  /-- Writes the fragment's EXEC mask to a scalar register (R130). -/
  | execr (d : Nat)
  /-- Writes EXEC from a scalar by the cleared-set rule, arriving at the innermost join if EXEC becomes zero (R130). -/
  | execw (a : Nat)
  /-- Reads a special register by index into a vector or scalar destination (R131). -/
  | sprr (d : Nat) (imm : Nat)
  /-- Writes TFLAGS in active lanes or clears RACEMISS (R132). -/
  | sprw (a : Nat) (imm : Nat)
  /-- Writes the 64-bit cluster arithmetic-clock count to an even scalar pair (R133). -/
  | clkr (d : Nat)
  /-- Copies the first active lane's value of a vector register to a scalar, or 0 when no lane is active (R135). -/
  | ufirst (d : Nat) (a : Nat)
  /-- Traps NONUNIFORM when active lanes hold different words in a vector register (R136). -/
  | uchk (a : Nat)
  /-- Copies a named lane's value of a vector register to a scalar whether or not the lane is active (R137). -/
  | ulane (d : Nat) (a : Nat) (imm : Nat)
  /-- Scalar 32-bit wrapping add (R138). -/
  | sadd (d : Nat) (a : Nat) (b : Nat)
  /-- Scalar 32-bit wrapping subtract (R138). -/
  | ssub (d : Nat) (a : Nat) (b : Nat)
  /-- Scalar multiply giving bits 31:0 of the product (R138). -/
  | smul (d : Nat) (a : Nat) (b : Nat)
  /-- Scalar bitwise and (R138). -/
  | sand (d : Nat) (a : Nat) (b : Nat)
  /-- Scalar bitwise or (R138). -/
  | sor (d : Nat) (a : Nat) (b : Nat)
  /-- Scalar bitwise exclusive or (R138). -/
  | sxor (d : Nat) (a : Nat) (b : Nat)
  /-- Scalar left shift, 0 for counts of 32 or more (R138). -/
  | sshl (d : Nat) (a : Nat) (b : Nat)
  /-- Scalar logical right shift, 0 for counts of 32 or more (R138). -/
  | sshr (d : Nat) (a : Nat) (b : Nat)
  /-- Scalar arithmetic right shift (R138). -/
  | ssar (d : Nat) (a : Nat) (b : Nat)
  /-- Copies one scalar register to another (R138). -/
  | smov (d : Nat) (a : Nat)
  /-- Scalar multiply giving the high 32 bits, signed or unsigned by f (R138). -/
  | smulh (d : Nat) (a : Nat) (b : Nat) (f : Nat)
  /-- Scalar minimum, signed or unsigned by f (R138). -/
  | smin (d : Nat) (a : Nat) (b : Nat) (f : Nat)
  /-- Scalar maximum, signed or unsigned by f (R138). -/
  | smax (d : Nat) (a : Nat) (b : Nat) (f : Nat)
  /-- Compares two scalars under a condition code and writes a uniform predicate (R139). -/
  | scmp (d : Nat) (a : Nat) (b : Nat) (f : Nat)
  /-- Combines uniform predicates by a predicate operation (R140). -/
  | qop (d : Nat) (a : Nat) (b : Nat) (f : Nat)
  /-- Writes a sign-extended 18-bit immediate to a scalar (R141). -/
  | smovi (d : Nat) (imm : Nat)
  /-- Writes an unsigned 18-bit immediate to bits 31:14 of a scalar, keeping bits 13:0 (R141). -/
  | smovh (d : Nat) (imm : Nat)
  /-- Loads one 32-bit word on the LS path into a scalar register (R142). -/
  | sld (d : Nat) (a : Nat) (k : Nat) (la : Nat)
  /-- Stores one scalar register as a 32-bit word on the LS path (R142). -/
  | sst (d : Nat) (a : Nat) (k : Nat) (la : Nat)
  /-- Per-element integer add, wrapping or clamping under SAT (R150). -/
  | iadd (d : Nat) (a : Nat) (b : Nat)
  /-- Per-element integer subtract (R150). -/
  | isub (d : Nat) (a : Nat) (b : Nat)
  /-- Per-element integer multiply, low bits (R150). -/
  | imul (d : Nat) (a : Nat) (b : Nat)
  /-- Per-element integer multiply, high bits (R150). -/
  | imulh (d : Nat) (a : Nat) (b : Nat)
  /-- Per-element integer multiply-add into the prior destination (R150). -/
  | imad (d : Nat) (a : Nat) (b : Nat)
  /-- Per-element integer minimum (R150). -/
  | imin (d : Nat) (a : Nat) (b : Nat)
  /-- Per-element integer maximum (R150). -/
  | imax (d : Nat) (a : Nat) (b : Nat)
  /-- Per-element integer absolute value (R150). -/
  | iabs (d : Nat) (a : Nat)
  /-- Bitwise and of whole words (R150). -/
  | vand (d : Nat) (a : Nat) (b : Nat)
  /-- Bitwise or of whole words (R150). -/
  | vor (d : Nat) (a : Nat) (b : Nat)
  /-- Bitwise exclusive or of whole words (R150). -/
  | vxor (d : Nat) (a : Nat) (b : Nat)
  /-- Bitwise a and not b (R150). -/
  | vandn (d : Nat) (a : Nat) (b : Nat)
  /-- Per-element left shift by a register count (R150). -/
  | shl (d : Nat) (a : Nat) (b : Nat)
  /-- Per-element logical right shift by a register count (R150). -/
  | shr (d : Nat) (a : Nat) (b : Nat)
  /-- Per-element arithmetic right shift by a register count (R150). -/
  | sar (d : Nat) (a : Nat) (b : Nat)
  /-- Counts the 1 bits of each word (R150). -/
  | popc (d : Nat) (a : Nat)
  /-- Counts leading zeros of each word (R150). -/
  | clz (d : Nat) (a : Nat)
  /-- Reverses the bits of each word (R150). -/
  | brev (d : Nat) (a : Nat)
  /-- Extracts a bit field described by b, zero- or sign-extended (R151). -/
  | bfe (d : Nat) (a : Nat) (b : Nat)
  /-- Inserts the low bits of a into a bit field of the prior destination (R151). -/
  | bfi (d : Nat) (a : Nat) (b : Nat)
  /-- Integer compare under a condition code, writing a lane predicate in active lanes (R152). -/
  | icmp (d : Nat) (a : Nat) (b : Nat) (f : Nat)
  /-- Selects a or b per lane by a lane predicate, copying planes of the chosen source (R153). -/
  | sel (d : Nat) (a : Nat) (b : Nat) (f : Nat)
  /-- Copies a register with its planes under TE (R153). -/
  | mov (d : Nat) (a : Nat)
  /-- Writes a sign-extended 10-bit immediate to active lanes with zero planes (R154). -/
  | movi (d : Nat) (imm : Nat)
  /-- Computes a + (b << sh) on 32-bit words (R155). -/
  | lea (d : Nat) (a : Nat) (b : Nat) (f : Nat)
  /-- Combines lane predicates by a predicate operation in active lanes (R156). -/
  | plop (d : Nat) (a : Nat) (b : Nat) (f : Nat)
  /-- Integer add of an immediate (R157). -/
  | iaddImm (d : Nat) (a : Nat) (imm : Nat)
  /-- Bitwise and with a sign-extended immediate (R157). -/
  | andImm (d : Nat) (a : Nat) (imm : Nat)
  /-- Bitwise or with a sign-extended immediate (R157). -/
  | orImm (d : Nat) (a : Nat) (imm : Nat)
  /-- Left shift by an immediate count (R157). -/
  | shlImm (d : Nat) (a : Nat) (imm : Nat)
  /-- Logical right shift by an immediate count (R157). -/
  | shrImm (d : Nat) (a : Nat) (imm : Nat)
  /-- Arithmetic right shift by an immediate count (R157). -/
  | sarImm (d : Nat) (a : Nat) (imm : Nat)
  /-- Floating-point add rounded under RM, with tangent planes (R158). -/
  | fadd (d : Nat) (a : Nat) (b : Nat)
  /-- Floating-point subtract rounded under RM (R158). -/
  | fsub (d : Nat) (a : Nat) (b : Nat)
  /-- Floating-point multiply rounded under RM (R158). -/
  | fmul (d : Nat) (a : Nat) (b : Nat)
  /-- Fused multiply-add into the prior destination, rounded once (R158). -/
  | ffma (d : Nat) (a : Nat) (b : Nat)
  /-- Floating-point minimum by R55 (R158). -/
  | fmin (d : Nat) (a : Nat) (b : Nat)
  /-- Floating-point maximum by R55 (R158). -/
  | fmax (d : Nat) (a : Nat) (b : Nat)
  /-- Clears the sign of each element (R158). -/
  | fabs (d : Nat) (a : Nat)
  /-- Inverts the sign of each element (R158). -/
  | fneg (d : Nat) (a : Nat)
  /-- Floating-point compare under a condition code, writing a lane predicate (R159). -/
  | fcmp (d : Nat) (a : Nat) (b : Nat) (f : Nat)
  /-- Converts elements of the ET type into slots of a destination format selected by the b code (R161). -/
  | fcvt (d : Nat) (a : Nat) (b : Nat)
  /-- Rounds each element to an integral value under RM (R158). -/
  | frint (d : Nat) (a : Nat)
  /-- Writes a one-hot class code per element (R160). -/
  | fclass (d : Nat) (a : Nat)
  /-- Clamps each element to [+0, 1] (R158). -/
  | fsat (d : Nat) (a : Nat)
  /-- Reciprocal special function (R163). -/
  | rcp (d : Nat) (a : Nat)
  /-- Reciprocal square root special function (R163). -/
  | rsq (d : Nat) (a : Nat)
  /-- Correctly rounded square root (R163). -/
  | sqrt (d : Nat) (a : Nat)
  /-- Base-2 exponential special function (R163). -/
  | ex2 (d : Nat) (a : Nat)
  /-- Base-2 logarithm special function (R163). -/
  | lg2 (d : Nat) (a : Nat)
  /-- Sine special function with exact argument reduction (R163). -/
  | sin (d : Nat) (a : Nat)
  /-- Cosine special function (R163). -/
  | cos (d : Nat) (a : Nat)
  /-- Hyperbolic tangent special function (R163). -/
  | tanh (d : Nat) (a : Nat)
  /-- Logistic sigmoid special function (R163). -/
  | sigm (d : Nat) (a : Nat)
  /-- Copies a value and seeds tangent plane k with 1.0 and the others with +0 (R165). -/
  | tseed (d : Nat) (a : Nat) (f : Nat)
  /-- Writes plane k of a source as a value with zero planes (R166). -/
  | tget (d : Nat) (a : Nat) (f : Nat)
  /-- Writes plane k of the destination from a source value (R167). -/
  | tset (d : Nat) (a : Nat) (f : Nat)
  /-- Clears every plane of a register, keeping its value (R168). -/
  | tclr (d : Nat)
  /-- Extrapolates a value along its planes by D scalar deltas with a chain of Fma (R169). -/
  | tlin (d : Nat) (a : Nat) (b : Nat)
  /-- Computes the texture level of detail from the screen-plane partials of u and v (R170). -/
  | tfoot (d : Nat) (a : Nat) (b : Nat)
  /-- Sets a lane predicate from the selected TFLAGS bits (R171). -/
  | tflag (d : Nat) (a : Nat)
  /-- Moves values and planes between lanes by idx, up, down or xor mode (R173). -/
  | shfl (d : Nat) (a : Nat) (b : Nat) (f : Nat)
  /-- Writes to a scalar the mask of active lanes where a predicate is set (R174). -/
  | ballot (d : Nat) (a : Nat)
  /-- Writes to a scalar the mask of active lanes equal to the first active lane's word (R175). -/
  | eqmask (d : Nat) (a : Nat)
  /-- Reduces active lanes over a fixed tree and writes the root to every active lane (R176). -/
  | redu (d : Nat) (a : Nat) (f : Nat)
  /-- Writes the index of the active lane holding the least or greatest value (R177). -/
  | minidx (d : Nat) (a : Nat) (f : Nat)
  /-- Computes an inclusive or exclusive prefix over active lanes in ascending order from a seed (R178). -/
  | scan (d : Nat) (a : Nat) (b : Nat) (f : Nat)
  /-- Merges two Welford states by R66 (R179). -/
  | welf (d : Nat) (a : Nat) (b : Nat)
  /-- Merges two online-softmax states by R67 (R179). -/
  | smxm (d : Nat) (a : Nat) (b : Nat)
  /-- Normalises an entry against a softmax state and sets the empty-row predicate by R68 (R179). -/
  | smxn (d : Nat) (a : Nat) (b : Nat) (f : Nat)
  /-- Loads a byte per lane, zero-extended (R186). -/
  | ldU8 (d : Nat) (a : Nat) (k : Nat) (la : Nat)
  /-- Loads a byte per lane, sign-extended (R186). -/
  | ldS8 (d : Nat) (a : Nat) (k : Nat) (la : Nat)
  /-- Loads a halfword per lane, zero-extended (R186). -/
  | ldU16 (d : Nat) (a : Nat) (k : Nat) (la : Nat)
  /-- Loads a halfword per lane, sign-extended (R186). -/
  | ldS16 (d : Nat) (a : Nat) (k : Nat) (la : Nat)
  /-- Loads a word per lane with zero planes (R186). -/
  | ldB32 (d : Nat) (a : Nat) (k : Nat) (la : Nat)
  /-- Loads 8 bytes per lane into an even register pair (R186). -/
  | ldB64 (d : Nat) (a : Nat) (k : Nat) (la : Nat)
  /-- Loads 16 bytes per lane into four registers (R186). -/
  | ldB128 (d : Nat) (a : Nat) (k : Nat) (la : Nat)
  /-- Stores the low byte per lane (R187). -/
  | stB8 (d : Nat) (a : Nat) (k : Nat) (la : Nat)
  /-- Stores the low halfword per lane (R187). -/
  | stB16 (d : Nat) (a : Nat) (k : Nat) (la : Nat)
  /-- Stores a word per lane, setting TD for nonzero planes (R187). -/
  | stB32 (d : Nat) (a : Nat) (k : Nat) (la : Nat)
  /-- Stores 8 bytes per lane from a register pair (R187). -/
  | stB64 (d : Nat) (a : Nat) (k : Nat) (la : Nat)
  /-- Stores 16 bytes per lane from four registers (R187). -/
  | stB128 (d : Nat) (a : Nat) (k : Nat) (la : Nat)
  /-- Loads a value and its D planes from a record of 1 + D words per lane (R190). -/
  | ldt (d : Nat) (a : Nat) (k : Nat) (la : Nat)
  /-- Stores a value and its D planes as a record of 1 + D words per lane (R191). -/
  | stt (d : Nat) (a : Nat) (k : Nat) (la : Nat)
  /-- Requests each lane's 32-byte sector into L2 and L1 without faulting or counting (R192). -/
  | prf (a : Nat) (k : Nat) (la : Nat)
  /-- Performs an atomic read-modify-write per lane under a control word and returns the prior value (R195). -/
  | atom (d : Nat) (a : Nat) (k : Nat) (la : Nat)
  /-- Performs an atomic read-modify-write per lane without a result (R196). -/
  | red (d : Nat) (a : Nat) (k : Nat) (la : Nat)
  /-- Acts as a release and/or acquire at the named scope for the group's LS accesses (R198). -/
  | fence (rel : Nat) (acq : Nat) (scope : Nat)
  /-- Orders the group's operations on the named access paths across the fence (R201). -/
  | xfence (m : Nat)
  /-- Waits until the group's counter for a path falls to a scalar threshold (R203). -/
  | waitp (a : Nat) (f : Nat)
  /-- Arrives at a team barrier and waits for the phase to complete (R205). -/
  | bar (a : Nat) (b : Nat)
  /-- Arrives at a team barrier and returns the phase token without waiting (R205). -/
  | bara (d : Nat) (a : Nat) (b : Nat)
  /-- Waits until a team barrier's phase differs from a token (R205). -/
  | barw (a : Nat) (b : Nat)
  /-- Waits until a completion barrier's phase differs from a token, acquiring engine writes (R212). -/
  | cbwait (a : Nat) (b : Nat)
  /-- Initialises a completion barrier word with phase 0 and an expected count (R210). -/
  | ldcb (a : Nat) (b : Nat)
  /-- Arms the group's single watch on the word at the first active lane's address (R213). -/
  | marm (a : Nat) (k : Nat) (la : Nat)
  /-- Waits until the watched word holds a value other than a scalar, then disarms the watch (R214). -/
  | mwait (a : Nat)
  /-- Opens a transaction, or enters ABORTED when the group holds several fragments (R216). -/
  | txb (d : Nat)
  /-- Gives the transaction's abort target, falling through while open and branching after an abort (R216). -/
  | txa (tgt : Nat)
  /-- Issues a Skidder copy of a byte count from SRC to DST of a copy handle (R237). -/
  | skid (d : Nat) (h : Nat) (la : Nat)
  /-- Issues a Skidder gather of one record per active lane (R238). -/
  | skidg (d : Nat) (h : Nat) (a : Nat) (la : Nat)
  /-- Issues one Kerf K-step on a tile with A rows from a tensor handle and B from a quad's registers (R229). -/
  | kmma (d : Nat) (h : Nat) (a : Nat) (la : Nat)
  /-- Issues a K-step applied by a leader and follower core pair in a cluster launch (R231). -/
  | kmmaPair (d : Nat) (h : Nat) (a : Nat) (la : Nat)
  /-- Issues a drain of a tile to memory or registers with scaling, residual, dropout and conversion (R234). -/
  | kdrn (d : Nat) (h : Nat) (a : Nat) (la : Nat)
  /-- Issues the clearing of a tile's acc, N, c and flags (R235). -/
  | kzero (d : Nat) (la : Nat)
  /-- Issues a read of a tile's flags and step counter into a scalar (R236). -/
  | kstat (d : Nat) (a : Nat) (la : Nat)
  /-- Launches or resumes a ray per lane on the core's Cruiser from its ray-state record (R246). -/
  | cruz (d : Nat) (h : Nat) (a : Nat) (la : Nat)
  /-- Reads each lane's ray record status and best hit into registers (R248). -/
  | crget (d : Nat) (a : Nat) (la : Nat)
  /-- Binds a cruise program image to a program id in the grid's program table (R245). -/
  | crld (d : Nat) (h : Nat) (la : Nat)
  /-- Opens a Canopy slot per lane with T_min, log capacity and log offset (R240). -/
  | cnop (d : Nat) (a : Nat) (la : Nat)
  /-- Inserts each lane's sample into its Canopy slot, committing behind or front as needed (R241). -/
  | cnad (d : Nat) (a : Nat) (la : Nat)
  /-- Reads each lane's Canopy slot state into nine registers (R242). -/
  | cnrd (d : Nat) (a : Nat) (la : Nat)
  /-- Commits a slot's buffer, optionally adds a background, and retires the slot (R243). -/
  | cncl (d : Nat) (a : Nat) (la : Nat)
  /-- Replays a slot's adjoint log backwards and writes per-sample gradients (R244). -/
  | cnaj (d : Nat) (h : Nat) (a : Nat) (la : Nat)
  /-- Stably reorders lanes across a set of groups by key, moving the bitmap's registers (R249). -/
  | sortk (d : Nat) (h : Nat) (a : Nat) (la : Nat)
  /-- Requests one landing record per active lane (R250). -/
  | ralc (d : Nat) (h : Nat) (a : Nat) (la : Nat)
  /-- Releases at package scope and commits each lane's record to the landing's consumer node (R251). -/
  | rcmt (h : Nat) (a : Nat) (la : Nat)
  /-- Writes each lane's batch record address and the batch count in a consumer team (R252). -/
  | rget (d : Nat) (h : Nat) (la : Nat)
  /-- Sends one triangle per lane to a rasteriser of the die (R253). -/
  | prim (h : Nat) (a : Nat) (la : Nat)
  /-- Issues a filtered texture sample per lane at u, v and level of detail (R256). -/
  | tex (d : Nat) (h : Nat) (a : Nat) (la : Nat)
  /-- Issue of a word that is not an instruction traps ILLEGAL with no state changed (R91). -/
  | evIllegalWord (w : Nat)
  /-- An access reaches its home and performs in the byte's total order after race and transaction checks (R321). -/
  | evMemoryAccessPerform (op : Nat)
  /-- A 32-byte sector of a load returns and writes the destination registers of the lanes it holds (R188). -/
  | evLoadSectorReturn (op : Nat) (sector : Nat)
  /-- A page walk through the context's tables completes and resolves an access's translation or fault (R419). -/
  | evTranslationWalk (ctx : Nat) (va : Nat)
  /-- A package or fabric release completes when the time window N + 2 begins (R199). -/
  | evReleaseWindow (op : Nat)
  /-- The fetch unit completes reading a K-step's A rows and scales into an operand buffer (R370). -/
  | evKerfFetch (op : Nat)
  /-- The array applies one 32-term group slot of a K-step to a tile's narrow sums (R370). -/
  | evKerfSlot (op : Nat)
  /-- When c reaches P the narrow sums are promoted into acc over the tile's accumulator port and the KMMA completes (R57). -/
  | evKerfPromotion (op : Nat)
  /-- After the team's earlier operations on the tile, the drain promotes, converts and writes the tile and reports status (R234). -/
  | evKdrnDrain (op : Nat)
  /-- After earlier operations on the tile, the tile is cleared (R235). -/
  | evKzeroClear (op : Nat)
  /-- After earlier operations on the tile, its flags and counter are written to a scalar (R236). -/
  | evKstatReport (op : Nat)
  /-- The cluster's Skidder performs an accepted copy and arrives on its completion barrier at completion (R237). -/
  | evSkidderCopy (op : Nat)
  /-- The slot's home Canopy performs one lane's Canopy operation indivisibly on the slot (R239). -/
  | evCanopyLaneStep (op : Nat)
  /-- Sets the micro-PC to the target (R275). -/
  | uJmp (tgt : Nat)
  /-- Branches to the target when the condition is false (R260). -/
  | uJz (c : Nat) (tgt : Nat) (imm : Nat)
  /-- Branches to the target when the condition is true (R260). -/
  | uJnz (c : Nat) (tgt : Nat) (imm : Nat)
  /-- Branches by whether NODE is an instance leaf, a primitive leaf or a node (R275). -/
  | uLeaf (tgt : Nat) (imm : Nat)
  /-- Commits, keeps with backup, or restores the best hit (R276). -/
  | uHitc (c : Nat)
  /-- Sets user flag F(imm) (R280). -/
  | uSetf (imm : Nat)
  /-- Clears user flag F(imm) (R280). -/
  | uClrf (imm : Nat)
  /-- Sets, decrements or increments the ray's counter CNT (R280). -/
  | uCntr (c : Nat) (imm : Nat)
  /-- Stops the ray with status DONE, code 3 and a subcode (R282). -/
  | uFaultx (imm : Nat)
  /-- A Cruiser with a free slot takes the oldest serviced ray of a context from the device ray queue and resumes it (R364). -/
  | evRayTakeUp (core : Nat) (ctx : Nat)
  /-- A finished ray's results reach the owner's core and are written to the lane, or refused when a save has begun (R365). -/
  | evRayDelivery (ray : Nat)
  /-- A covered sample indivisibly updates its visibility-buffer entry when nearer (R254). -/
  | evRasterSampleUpdate (op : Nat)
  /-- Filtered texel data is written to a lane's registers and TEX completes (R256). -/
  | evTextureReturn (op : Nat) (lane : Nat)
  /-- Free records are handed to a waiting RALC's lanes in order and it completes (R250). -/
  | evRalcServe (op : Nat)
  /-- When the stall limit passes, unserved lanes receive address 0 with the predicate set (R250). -/
  | evRalcStallExpiry (op : Nat)
  /-- TIMEOUT expiry forms all pending records into a batch (R399). -/
  | evBatchTimeout (landing : Nat)
  /-- A retired consumer team's batch records return to FREE once its accesses have completed (R437). -/
  | evRecordReturn (team : Nat)
  /-- When every resident group waits in RSCOPE, the youngest's scopes are saved until the oldest's request fits (R129). -/
  | evRscopePressure (core : Nat)
  /-- When register space frees, saved scopes are reinstated and waiting RSCOPEs granted, oldest first (R309). -/
  | evScopeServe (core : Nat)
  /-- After 16 clk a yielding group takes part in issue choice again (R126). -/
  | evYieldExpiry (gs : Nat)
  /-- When the group's count of windows without a region end reaches LIMIT, it takes WATCHDOG (R443). -/
  | evWatchdog (gs : Nat)
  /-- 100 µs after a request, an unsaved group is stopped for a full save (R411). -/
  | evFullSaveEscalation (gs : Nat)
  /-- Once every group can be saved and counters have drained, the team is written to its save unit and context slots (R412). -/
  | evTeamSave (team : Nat)
  /-- When its core, slots, bytes and tiles are free, a saved team is checked and restored (R414). -/
  | evTeamRestore (team : Nat)
  /-- The dispatcher places the next team of a launch on the first core with room (R391). -/
  | evTeamPlacement (grid : Nat)
  /-- The dispatcher reads and checks a launch packet whole, accepting or rejecting it (R389). -/
  | evLaunchPacket (queue : Nat)
  /-- When a launch ends, its completion record is written and MSI-X signalled (R390). -/
  | evLaunchCompletion (grid : Nat)
  /-- A doorbell write makes the dispatcher read the named queue's TAIL and packets (R387). -/
  | evLqbell (queue : Nat)
  /-- A PREQ write requests pre-emption of a context's teams on a core or every core (R409). -/
  | evPreemptRequest (value : Nat)
  /-- A PREQ write with CANCEL withdraws requests from teams whose save has not started (R409). -/
  | evPreemptCancel (value : Nat)
  /-- A TKILL write kills every team of the named grid (R455). -/
  | evTkill (value : Nat)
  /-- A response without FAIL lets a parked fragment replay, an engine continue or a ray enter the ray queue (R453). -/
  | evFaultResponse (seq : Nat)
  /-- A response with FAIL makes a fragment trap in place, stops an engine operation or ends a ray (R453). -/
  | evFaultResponseFail (seq : Nat)
  /-- Management requests a cluster frequency step code, replacing any pending one (R459). -/
  | evFsetWrite (cluster : Nat) (value : Nat)
  /-- A pending frequency code takes effect at a 40 ns boundary (R458). -/
  | evFrequencyChange (cluster : Nat)
  /-- The device scrubs HBM4E sectors and SRAM words, correcting or poisoning them (R466). -/
  | evScrub (addr : Nat) (kind : Nat)
  /-- An uncorrectable error in core state kills the owning team with cause ECC (R465). -/
  | evCoreStateUncorrectable (gs : Nat) (pc : Nat) (src : Nat)
  /-- A die completes bring-up and sets its readiness bit, starting its clock counters and traces (R469). -/
  | evDieReady (die : Nat) (ok : Nat)
  /-- An HBM4E stack comes up and sets its readiness bit, or its failure bit (R469). -/
  | evStackReady (stack : Nat) (ok : Nat)
  /-- A fabric port comes up and sets its readiness bit, or its failure bit (R469). -/
  | evPortReady (port : Nat) (ok : Nat)
  /-- A firmware image received over MCTP is verified and stored for the next reset (R470). -/
  | evFirmwareUpdate (ecdsa : Nat) (lms : Nat) (version : Nat)
  /-- An IEEE 1588 synchronisation updates the offset estimate and sets or clears LOCK (R430). -/
  | evPtpSync (offset : Nat)
  /-- A fabric port going down moves its blocks to the remaining ports of each mask (R429). -/
  | evPortDown (port : Nat)
  /-- A host write over CXL.mem performs at the owning die's L2 (R432). -/
  | evHostCxlMemWrite (addr : Nat) (bytes : List Nat)
  /-- A write to a register of the CXL.io register space that has no behaviour of its own stores its fields (R386). -/
  | evRegisterWrite (off : Nat) (value : Nat) (size : Nat)
  /-- The Cruiser fetches a microword that is not an operation, or lies beyond the program, or would pass the step limit, and ends the ray by R283 with nothing of that word performed (R259). -/
  | evIllegalMicroword (w : Nat)
  /-- An access from another device of the scale-up domain arrives over a fabric port and performs at the home L2 of this device's HBM4E byte (R314). -/
  | evPeerMemoryAccess (addr : Nat) (wr : Nat) (bytes : List Nat)
  /-- Does nothing except count as one instruction of any lookahead window it falls in (R105). -/
  | nop
  /-- Pops the top return address into PC, trapping SPLIT subcode 2 at depth 0 (R116). -/
  | ret
  /-- Removes the fragment's lanes and its cleared lanes from the group, ending the group and retiring the team when no lane remains (R117). -/
  | exit
  /-- Returns from a trap handler, restoring state from the frame, resuming held fragments and re-injecting the replay queue (R122). -/
  | tret
  /-- Takes the group out of issue choice until another group issues on the pipe or 16 clk pass, and restarts its aging count (R126). -/
  | yield
  /-- Closes the most recently opened register scope and frees its registers (R128). -/
  | rsend
  /-- Arrives at and waits on the cluster barrier of a cluster launch (R208). -/
  | cbar
  /-- Commits an open transaction, making its held stores visible at once (R218). -/
  | txc
  /-- Reads the node named by NODE into the node buffer (R267). -/
  | uNload
  /-- Tests every child box of the buffered node and builds the child list (R268). -/
  | uBoxn
  /-- Tests up to four triangles of the current leaf and updates the candidate hit (R269). -/
  | uTrin
  /-- Tests up to four spheres or splats of the current leaf (R271). -/
  | uSphn
  /-- Sorts the child list stably by entry t (R272). -/
  | uOrdn
  /-- Pushes the child list onto the stack, first on top, spilling as needed (R273). -/
  | uPushn
  /-- Pops the top stack entry into NODE, or sets NONE (R273). -/
  | uPopn
  /-- Takes the first child into NODE and pushes the rest, or pops when the list is empty (R273). -/
  | uNextp
  /-- Hands the ray back to its owner with status ANYHIT and code 2 (R277). -/
  | uAnyh
  /-- Enters an instance, transforming the ray and setting NODE to the instance root (R278). -/
  | uXfrm
  /-- Leaves an instance, restoring world ray and stack base (R279). -/
  | uXret
  /-- Finishes the ray with code 1 and a miss result (R281). -/
  | uMiss
  /-- Finishes the ray with code 0 when a hit is committed, otherwise as MISS (R281). -/
  | uDone
  /-- Reading PRCNT returns the count of teams saved and clears it (R409). -/
  | evPrcntRead
  /-- GO with TSCOPE 0 invalidates translations covering TVA (R425). -/
  | evTlbInvalidateVa
  /-- GO with TSCOPE 1 invalidates the whole context's translations (R425). -/
  | evTlbInvalidateContext
  /-- GO with TSCOPE 2 invalidates every context's translations (R425). -/
  | evTlbInvalidateAll
  /-- When no cache holds a covered entry and old accesses have completed, BUSY clears and MSI-X 3 is signalled (R425). -/
  | evTlbInvalidateDone
  /-- ICCMD GO with TSCOPE 0 invalidates instruction cache lines covering ICVA (R435). -/
  | evIcacheInvalidateVa
  /-- ICCMD GO with TSCOPE 1 invalidates a context's instruction cache lines (R435). -/
  | evIcacheInvalidateContext
  /-- ICCMD GO with TSCOPE 2 invalidates all instruction cache lines (R435). -/
  | evIcacheInvalidateAll
  /-- The instruction cache invalidation completes, BUSY clears and MSI-X 4 is signalled (R435). -/
  | evIcacheInvalidateDone
  /-- A fault needing service is written to the fault ring when space is free, and MSI-X 5 is signalled (R452). -/
  | evFaultQueueEntry
  /-- Clearing EN answers every held fault as with FAIL (R452). -/
  | evFaultQueueDisable
  /-- Any write to CECNT clears the corrected-error count (R467). -/
  | evCecntClear
  /-- Any write to UECNT clears the uncorrectable-error count (R467). -/
  | evUecntClear
  /-- At each 1 µs window boundary waiting requests are charged and accepted as budgets allow (R403). -/
  | evBudgetWindow
  /-- Over-temperature or over-current stops every core, kills every team and sets TRIP (R461). -/
  | evProtectiveTrip
  /-- Power-up or reset clears readiness and starts independent bring-up of each function (R468). -/
  | evDeviceReset
deriving DecidableEq, Repr

end Sys2Proof
end

