-- ==== Sys2Proof/Decode.lean ====
section
/-!
DEFINITION. Words and fields (R77 to R84, R90, R257, R258): the decoder of kernel words and of microwords, total on any
bytes, and the encoder written from the same tables.
-/
namespace Sys2Proof

/-- Why a word is not an instruction or a micro-operation (R80, R90, R91, R259). -/
inductive Reject where
  /-- The opcode is reserved (R90, R258). -/
  | reservedOpcode (op : Nat)
  /-- A field that the entry does not use is not zero (R80, R257). -/
  | unusedField (op : Nat)
  /-- Fewer than four bytes are left. -/
  | tooShort
deriving DecidableEq, Repr

/-- Bits hi:lo of a word. -/
def bits (w hi lo : Nat) : Nat := w / 2 ^ lo % 2 ^ (hi + 1 - lo)

/-- The word as an instruction when the unused bits are zero (R80). -/
def whenUnused (op : Nat) (unused : Bool) (i : Instr) : Except Reject Instr :=
  if unused then .ok i else .error (.unusedField op)


/-- The control and system words, 0x01 to 0x18 (R102 to R137). -/
def decodeControl (op w : Nat) : Except Reject Instr :=
  if op = 0x01 then whenUnused op (bits w 23 0 == 0) (.nop)
  else if op = 0x02 then whenUnused op (true) (.setm (bits w 23 0))
  else if op = 0x03 then whenUnused op (true) (.bra (bits w 23 21) (bits w 20 20) (bits w 19 10) (bits w 9 0))
  else if op = 0x04 then whenUnused op (true) (.bru (bits w 23 21) (bits w 20 20) (bits w 19 10) (bits w 9 0))
  else if op = 0x05 then whenUnused op (bits w 9 0 == 0 && bits w 23 17 == 0) (.jmps (bits w 16 10))
  else if op = 0x06 then whenUnused op (bits w 9 0 == 0) (.call (bits w 23 21) (bits w 20 20) (bits w 19 10))
  else if op = 0x07 then whenUnused op (bits w 9 0 == 0 && bits w 23 17 == 0) (.calls (bits w 16 10))
  else if op = 0x08 then whenUnused op (bits w 23 0 == 0) (.ret)
  else if op = 0x09 then whenUnused op (bits w 23 10 == 0) (.sync (bits w 9 0))
  else if op = 0x0A then whenUnused op (bits w 23 0 == 0) (.exit)
  else if op = 0x0B then whenUnused op (bits w 23 18 == 0) (.trap (bits w 17 0))
  else if op = 0x0C then whenUnused op (bits w 23 0 == 0) (.tret)
  else if op = 0x0D then whenUnused op (bits w 23 18 == 0) (.ppt (bits w 17 0))
  else if op = 0x0E then whenUnused op (bits w 23 0 == 0) (.yield)
  else if op = 0x0F then whenUnused op (bits w 23 18 == 0) (.rscope (bits w 17 0))
  else if op = 0x10 then whenUnused op (bits w 23 0 == 0) (.rsend)
  else if op = 0x11 then whenUnused op (bits w 16 0 == 0) (.execr (bits w 23 17))
  else if op = 0x12 then whenUnused op (bits w 9 0 == 0 && bits w 23 17 == 0) (.execw (bits w 16 10))
  else if op = 0x13 then whenUnused op (bits w 16 10 == 0) (.sprr (bits w 23 17) (bits w 9 0))
  else if op = 0x14 then whenUnused op (bits w 23 17 == 0) (.sprw (bits w 16 10) (bits w 9 0))
  else if op = 0x15 then whenUnused op (bits w 17 0 == 0) (.clkr (bits w 23 18))
  else if op = 0x16 then whenUnused op (bits w 9 0 == 0) (.ufirst (bits w 23 17) (bits w 16 10))
  else if op = 0x17 then whenUnused op (bits w 9 0 == 0 && bits w 23 17 == 0) (.uchk (bits w 16 10))
  else if op = 0x18 then whenUnused op (true) (.ulane (bits w 23 17) (bits w 16 10) (bits w 9 0))
  else .error (.reservedOpcode op)

/-- The scalar words, 0x19 to 0x2B (R138 to R142). -/
def decodeScalar (op w : Nat) : Except Reject Instr :=
  if op = 0x19 then whenUnused op (bits w 2 0 == 0) (.sadd (bits w 23 17) (bits w 16 10) (bits w 9 3))
  else if op = 0x1A then whenUnused op (bits w 2 0 == 0) (.ssub (bits w 23 17) (bits w 16 10) (bits w 9 3))
  else if op = 0x1B then whenUnused op (bits w 2 0 == 0) (.smul (bits w 23 17) (bits w 16 10) (bits w 9 3))
  else if op = 0x1C then whenUnused op (bits w 2 0 == 0) (.sand (bits w 23 17) (bits w 16 10) (bits w 9 3))
  else if op = 0x1D then whenUnused op (bits w 2 0 == 0) (.sor (bits w 23 17) (bits w 16 10) (bits w 9 3))
  else if op = 0x1E then whenUnused op (bits w 2 0 == 0) (.sxor (bits w 23 17) (bits w 16 10) (bits w 9 3))
  else if op = 0x1F then whenUnused op (bits w 2 0 == 0) (.sshl (bits w 23 17) (bits w 16 10) (bits w 9 3))
  else if op = 0x20 then whenUnused op (bits w 2 0 == 0) (.sshr (bits w 23 17) (bits w 16 10) (bits w 9 3))
  else if op = 0x21 then whenUnused op (bits w 2 0 == 0) (.ssar (bits w 23 17) (bits w 16 10) (bits w 9 3))
  else if op = 0x22 then whenUnused op (bits w 9 0 == 0) (.smov (bits w 23 17) (bits w 16 10))
  else if op = 0x23 then whenUnused op (true) (.smulh (bits w 23 17) (bits w 16 10) (bits w 9 3) (bits w 2 0))
  else if op = 0x24 then whenUnused op (true) (.smin (bits w 23 17) (bits w 16 10) (bits w 9 3) (bits w 2 0))
  else if op = 0x25 then whenUnused op (true) (.smax (bits w 23 17) (bits w 16 10) (bits w 9 3) (bits w 2 0))
  else if op = 0x26 then whenUnused op (true) (.scmp (bits w 23 17) (bits w 16 10) (bits w 9 3) (bits w 2 0))
  else if op = 0x27 then whenUnused op (true) (.qop (bits w 23 17) (bits w 16 10) (bits w 9 3) (bits w 2 0))
  else if op = 0x28 then whenUnused op (true) (.smovi (bits w 23 18) (bits w 17 0))
  else if op = 0x29 then whenUnused op (true) (.smovh (bits w 23 18) (bits w 17 0))
  else if op = 0x2A then whenUnused op (true) (.sld (bits w 23 17) (bits w 16 10) (bits w 9 4) (bits w 3 0))
  else if op = 0x2B then whenUnused op (true) (.sst (bits w 23 17) (bits w 16 10) (bits w 9 4) (bits w 3 0))
  else .error (.reservedOpcode op)

/-- The integer and logical words, 0x40 to 0x5F (R150 to R157). -/
def decodeInteger (op w : Nat) : Except Reject Instr :=
  if op = 0x40 then whenUnused op (bits w 2 0 == 0) (.iadd (bits w 23 17) (bits w 16 10) (bits w 9 3))
  else if op = 0x41 then whenUnused op (bits w 2 0 == 0) (.isub (bits w 23 17) (bits w 16 10) (bits w 9 3))
  else if op = 0x42 then whenUnused op (bits w 2 0 == 0) (.imul (bits w 23 17) (bits w 16 10) (bits w 9 3))
  else if op = 0x43 then whenUnused op (bits w 2 0 == 0) (.imulh (bits w 23 17) (bits w 16 10) (bits w 9 3))
  else if op = 0x44 then whenUnused op (bits w 2 0 == 0) (.imad (bits w 23 17) (bits w 16 10) (bits w 9 3))
  else if op = 0x45 then whenUnused op (bits w 2 0 == 0) (.imin (bits w 23 17) (bits w 16 10) (bits w 9 3))
  else if op = 0x46 then whenUnused op (bits w 2 0 == 0) (.imax (bits w 23 17) (bits w 16 10) (bits w 9 3))
  else if op = 0x47 then whenUnused op (bits w 9 0 == 0) (.iabs (bits w 23 17) (bits w 16 10))
  else if op = 0x48 then whenUnused op (bits w 2 0 == 0) (.vand (bits w 23 17) (bits w 16 10) (bits w 9 3))
  else if op = 0x49 then whenUnused op (bits w 2 0 == 0) (.vor (bits w 23 17) (bits w 16 10) (bits w 9 3))
  else if op = 0x4A then whenUnused op (bits w 2 0 == 0) (.vxor (bits w 23 17) (bits w 16 10) (bits w 9 3))
  else if op = 0x4B then whenUnused op (bits w 2 0 == 0) (.vandn (bits w 23 17) (bits w 16 10) (bits w 9 3))
  else if op = 0x4C then whenUnused op (bits w 2 0 == 0) (.shl (bits w 23 17) (bits w 16 10) (bits w 9 3))
  else if op = 0x4D then whenUnused op (bits w 2 0 == 0) (.shr (bits w 23 17) (bits w 16 10) (bits w 9 3))
  else if op = 0x4E then whenUnused op (bits w 2 0 == 0) (.sar (bits w 23 17) (bits w 16 10) (bits w 9 3))
  else if op = 0x4F then whenUnused op (bits w 9 0 == 0) (.popc (bits w 23 17) (bits w 16 10))
  else if op = 0x50 then whenUnused op (bits w 9 0 == 0) (.clz (bits w 23 17) (bits w 16 10))
  else if op = 0x51 then whenUnused op (bits w 9 0 == 0) (.brev (bits w 23 17) (bits w 16 10))
  else if op = 0x52 then whenUnused op (bits w 2 0 == 0) (.bfe (bits w 23 17) (bits w 16 10) (bits w 9 3))
  else if op = 0x53 then whenUnused op (bits w 2 0 == 0) (.bfi (bits w 23 17) (bits w 16 10) (bits w 9 3))
  else if op = 0x54 then whenUnused op (true) (.icmp (bits w 23 17) (bits w 16 10) (bits w 9 3) (bits w 2 0))
  else if op = 0x55 then whenUnused op (true) (.sel (bits w 23 17) (bits w 16 10) (bits w 9 3) (bits w 2 0))
  else if op = 0x56 then whenUnused op (bits w 9 0 == 0) (.mov (bits w 23 17) (bits w 16 10))
  else if op = 0x57 then whenUnused op (bits w 16 10 == 0) (.movi (bits w 23 17) (bits w 9 0))
  else if op = 0x58 then whenUnused op (true) (.lea (bits w 23 17) (bits w 16 10) (bits w 9 3) (bits w 2 0))
  else if op = 0x59 then whenUnused op (true) (.plop (bits w 23 17) (bits w 16 10) (bits w 9 3) (bits w 2 0))
  else if op = 0x5A then whenUnused op (true) (.iaddImm (bits w 23 17) (bits w 16 10) (bits w 9 0))
  else if op = 0x5B then whenUnused op (true) (.andImm (bits w 23 17) (bits w 16 10) (bits w 9 0))
  else if op = 0x5C then whenUnused op (true) (.orImm (bits w 23 17) (bits w 16 10) (bits w 9 0))
  else if op = 0x5D then whenUnused op (true) (.shlImm (bits w 23 17) (bits w 16 10) (bits w 9 0))
  else if op = 0x5E then whenUnused op (true) (.shrImm (bits w 23 17) (bits w 16 10) (bits w 9 0))
  else if op = 0x5F then whenUnused op (true) (.sarImm (bits w 23 17) (bits w 16 10) (bits w 9 0))
  else .error (.reservedOpcode op)

/-- The float words, 0x60 to 0x78 (R158 to R163). -/
def decodeFloat (op w : Nat) : Except Reject Instr :=
  if op = 0x60 then whenUnused op (bits w 2 0 == 0) (.fadd (bits w 23 17) (bits w 16 10) (bits w 9 3))
  else if op = 0x61 then whenUnused op (bits w 2 0 == 0) (.fsub (bits w 23 17) (bits w 16 10) (bits w 9 3))
  else if op = 0x62 then whenUnused op (bits w 2 0 == 0) (.fmul (bits w 23 17) (bits w 16 10) (bits w 9 3))
  else if op = 0x63 then whenUnused op (bits w 2 0 == 0) (.ffma (bits w 23 17) (bits w 16 10) (bits w 9 3))
  else if op = 0x64 then whenUnused op (bits w 2 0 == 0) (.fmin (bits w 23 17) (bits w 16 10) (bits w 9 3))
  else if op = 0x65 then whenUnused op (bits w 2 0 == 0) (.fmax (bits w 23 17) (bits w 16 10) (bits w 9 3))
  else if op = 0x66 then whenUnused op (bits w 9 0 == 0) (.fabs (bits w 23 17) (bits w 16 10))
  else if op = 0x67 then whenUnused op (bits w 9 0 == 0) (.fneg (bits w 23 17) (bits w 16 10))
  else if op = 0x68 then whenUnused op (true) (.fcmp (bits w 23 17) (bits w 16 10) (bits w 9 3) (bits w 2 0))
  else if op = 0x69 then whenUnused op (bits w 2 0 == 0) (.fcvt (bits w 23 17) (bits w 16 10) (bits w 9 3))
  else if op = 0x6A then whenUnused op (bits w 9 0 == 0) (.frint (bits w 23 17) (bits w 16 10))
  else if op = 0x6B then whenUnused op (bits w 9 0 == 0) (.fclass (bits w 23 17) (bits w 16 10))
  else if op = 0x6C then whenUnused op (bits w 9 0 == 0) (.fsat (bits w 23 17) (bits w 16 10))
  else if op = 0x70 then whenUnused op (bits w 9 0 == 0) (.rcp (bits w 23 17) (bits w 16 10))
  else if op = 0x71 then whenUnused op (bits w 9 0 == 0) (.rsq (bits w 23 17) (bits w 16 10))
  else if op = 0x72 then whenUnused op (bits w 9 0 == 0) (.sqrt (bits w 23 17) (bits w 16 10))
  else if op = 0x73 then whenUnused op (bits w 9 0 == 0) (.ex2 (bits w 23 17) (bits w 16 10))
  else if op = 0x74 then whenUnused op (bits w 9 0 == 0) (.lg2 (bits w 23 17) (bits w 16 10))
  else if op = 0x75 then whenUnused op (bits w 9 0 == 0) (.sin (bits w 23 17) (bits w 16 10))
  else if op = 0x76 then whenUnused op (bits w 9 0 == 0) (.cos (bits w 23 17) (bits w 16 10))
  else if op = 0x77 then whenUnused op (bits w 9 0 == 0) (.tanh (bits w 23 17) (bits w 16 10))
  else if op = 0x78 then whenUnused op (bits w 9 0 == 0) (.sigm (bits w 23 17) (bits w 16 10))
  else .error (.reservedOpcode op)

/-- The tangent, cross-lane and merge words, 0x80 to 0x98 (R164 to R179). -/
def decodeCross (op w : Nat) : Except Reject Instr :=
  if op = 0x80 then whenUnused op (bits w 9 3 == 0) (.tseed (bits w 23 17) (bits w 16 10) (bits w 2 0))
  else if op = 0x81 then whenUnused op (bits w 9 3 == 0) (.tget (bits w 23 17) (bits w 16 10) (bits w 2 0))
  else if op = 0x82 then whenUnused op (bits w 9 3 == 0) (.tset (bits w 23 17) (bits w 16 10) (bits w 2 0))
  else if op = 0x83 then whenUnused op (bits w 16 0 == 0) (.tclr (bits w 23 17))
  else if op = 0x84 then whenUnused op (bits w 2 0 == 0) (.tlin (bits w 23 17) (bits w 16 10) (bits w 9 3))
  else if op = 0x85 then whenUnused op (bits w 2 0 == 0) (.tfoot (bits w 23 17) (bits w 16 10) (bits w 9 3))
  else if op = 0x86 then whenUnused op (bits w 9 0 == 0) (.tflag (bits w 23 17) (bits w 16 10))
  else if op = 0x90 then whenUnused op (true) (.shfl (bits w 23 17) (bits w 16 10) (bits w 9 3) (bits w 2 0))
  else if op = 0x91 then whenUnused op (bits w 9 0 == 0) (.ballot (bits w 23 17) (bits w 16 10))
  else if op = 0x92 then whenUnused op (bits w 9 0 == 0) (.eqmask (bits w 23 17) (bits w 16 10))
  else if op = 0x93 then whenUnused op (bits w 9 3 == 0) (.redu (bits w 23 17) (bits w 16 10) (bits w 2 0))
  else if op = 0x94 then whenUnused op (bits w 9 3 == 0) (.minidx (bits w 23 17) (bits w 16 10) (bits w 2 0))
  else if op = 0x95 then whenUnused op (true) (.scan (bits w 23 17) (bits w 16 10) (bits w 9 3) (bits w 2 0))
  else if op = 0x96 then whenUnused op (bits w 2 0 == 0) (.welf (bits w 23 17) (bits w 16 10) (bits w 9 3))
  else if op = 0x97 then whenUnused op (bits w 2 0 == 0) (.smxm (bits w 23 17) (bits w 16 10) (bits w 9 3))
  else if op = 0x98 then whenUnused op (true) (.smxn (bits w 23 17) (bits w 16 10) (bits w 9 3) (bits w 2 0))
  else .error (.reservedOpcode op)

/-- The memory and synchronisation words, 0xA0 to 0xBF (R185 to R218). -/
def decodeMemory (op w : Nat) : Except Reject Instr :=
  if op = 0xA0 then whenUnused op (true) (.ldU8 (bits w 23 17) (bits w 16 10) (bits w 9 4) (bits w 3 0))
  else if op = 0xA1 then whenUnused op (true) (.ldS8 (bits w 23 17) (bits w 16 10) (bits w 9 4) (bits w 3 0))
  else if op = 0xA2 then whenUnused op (true) (.ldU16 (bits w 23 17) (bits w 16 10) (bits w 9 4) (bits w 3 0))
  else if op = 0xA3 then whenUnused op (true) (.ldS16 (bits w 23 17) (bits w 16 10) (bits w 9 4) (bits w 3 0))
  else if op = 0xA4 then whenUnused op (true) (.ldB32 (bits w 23 17) (bits w 16 10) (bits w 9 4) (bits w 3 0))
  else if op = 0xA5 then whenUnused op (true) (.ldB64 (bits w 23 17) (bits w 16 10) (bits w 9 4) (bits w 3 0))
  else if op = 0xA6 then whenUnused op (true) (.ldB128 (bits w 23 17) (bits w 16 10) (bits w 9 4) (bits w 3 0))
  else if op = 0xA8 then whenUnused op (true) (.stB8 (bits w 23 17) (bits w 16 10) (bits w 9 4) (bits w 3 0))
  else if op = 0xA9 then whenUnused op (true) (.stB16 (bits w 23 17) (bits w 16 10) (bits w 9 4) (bits w 3 0))
  else if op = 0xAA then whenUnused op (true) (.stB32 (bits w 23 17) (bits w 16 10) (bits w 9 4) (bits w 3 0))
  else if op = 0xAB then whenUnused op (true) (.stB64 (bits w 23 17) (bits w 16 10) (bits w 9 4) (bits w 3 0))
  else if op = 0xAC then whenUnused op (true) (.stB128 (bits w 23 17) (bits w 16 10) (bits w 9 4) (bits w 3 0))
  else if op = 0xAD then whenUnused op (true) (.ldt (bits w 23 17) (bits w 16 10) (bits w 9 4) (bits w 3 0))
  else if op = 0xAE then whenUnused op (true) (.stt (bits w 23 17) (bits w 16 10) (bits w 9 4) (bits w 3 0))
  else if op = 0xAF then whenUnused op (bits w 23 17 == 0) (.prf (bits w 16 10) (bits w 9 4) (bits w 3 0))
  else if op = 0xB0 then whenUnused op (true) (.atom (bits w 23 17) (bits w 16 10) (bits w 9 4) (bits w 3 0))
  else if op = 0xB1 then whenUnused op (true) (.red (bits w 23 17) (bits w 16 10) (bits w 9 4) (bits w 3 0))
  else if op = 0xB2 then whenUnused op (bits w 23 5 == 0) (.fence (bits w 4 4) (bits w 3 3) (bits w 2 0))
  else if op = 0xB3 then whenUnused op (bits w 23 7 == 0) (.xfence (bits w 6 0))
  else if op = 0xB4 then whenUnused op (bits w 9 3 == 0 && bits w 23 17 == 0) (.waitp (bits w 16 10) (bits w 2 0))
  else if op = 0xB5 then whenUnused op (bits w 2 0 == 0 && bits w 23 17 == 0) (.bar (bits w 16 10) (bits w 9 3))
  else if op = 0xB6 then whenUnused op (bits w 2 0 == 0) (.bara (bits w 23 17) (bits w 16 10) (bits w 9 3))
  else if op = 0xB7 then whenUnused op (bits w 2 0 == 0 && bits w 23 17 == 0) (.barw (bits w 16 10) (bits w 9 3))
  else if op = 0xB8 then whenUnused op (bits w 23 0 == 0) (.cbar)
  else if op = 0xB9 then whenUnused op (bits w 2 0 == 0 && bits w 23 17 == 0) (.cbwait (bits w 16 10) (bits w 9 3))
  else if op = 0xBA then whenUnused op (bits w 2 0 == 0 && bits w 23 17 == 0) (.ldcb (bits w 16 10) (bits w 9 3))
  else if op = 0xBB then whenUnused op (bits w 23 17 == 0) (.marm (bits w 16 10) (bits w 9 4) (bits w 3 0))
  else if op = 0xBC then whenUnused op (bits w 9 0 == 0 && bits w 23 17 == 0) (.mwait (bits w 16 10))
  else if op = 0xBD then whenUnused op (bits w 17 0 == 0) (.txb (bits w 23 18))
  else if op = 0xBE then whenUnused op (bits w 23 0 == 0) (.txc)
  else if op = 0xBF then whenUnused op (bits w 9 0 == 0 && bits w 23 20 == 0) (.txa (bits w 19 10))
  else .error (.reservedOpcode op)

/-- The engine words, 0xD0 to 0xE4 (R220). -/
def decodeEngine (op w : Nat) : Except Reject Instr :=
  if op = 0xD0 then whenUnused op (bits w 10 4 == 0) (.skid (bits w 23 17) (bits w 16 11) (bits w 3 0))
  else if op = 0xD1 then whenUnused op (true) (.skidg (bits w 23 17) (bits w 16 11) (bits w 10 4) (bits w 3 0))
  else if op = 0xD2 then whenUnused op (true) (.kmma (bits w 23 17) (bits w 16 11) (bits w 10 4) (bits w 3 0))
  else if op = 0xD3 then whenUnused op (true) (.kmmaPair (bits w 23 17) (bits w 16 11) (bits w 10 4) (bits w 3 0))
  else if op = 0xD4 then whenUnused op (true) (.kdrn (bits w 23 17) (bits w 16 11) (bits w 10 4) (bits w 3 0))
  else if op = 0xD5 then whenUnused op (bits w 16 4 == 0) (.kzero (bits w 23 17) (bits w 3 0))
  else if op = 0xD6 then whenUnused op (bits w 16 11 == 0) (.kstat (bits w 23 17) (bits w 10 4) (bits w 3 0))
  else if op = 0xD7 then whenUnused op (true) (.cruz (bits w 23 17) (bits w 16 11) (bits w 10 4) (bits w 3 0))
  else if op = 0xD8 then whenUnused op (bits w 16 11 == 0) (.crget (bits w 23 17) (bits w 10 4) (bits w 3 0))
  else if op = 0xD9 then whenUnused op (bits w 10 4 == 0) (.crld (bits w 23 17) (bits w 16 11) (bits w 3 0))
  else if op = 0xDA then whenUnused op (bits w 16 11 == 0) (.cnop (bits w 23 17) (bits w 10 4) (bits w 3 0))
  else if op = 0xDB then whenUnused op (bits w 16 11 == 0) (.cnad (bits w 23 17) (bits w 10 4) (bits w 3 0))
  else if op = 0xDC then whenUnused op (bits w 16 11 == 0) (.cnrd (bits w 23 17) (bits w 10 4) (bits w 3 0))
  else if op = 0xDD then whenUnused op (bits w 16 11 == 0) (.cncl (bits w 23 17) (bits w 10 4) (bits w 3 0))
  else if op = 0xDE then whenUnused op (true) (.cnaj (bits w 23 17) (bits w 16 11) (bits w 10 4) (bits w 3 0))
  else if op = 0xDF then whenUnused op (true) (.sortk (bits w 23 17) (bits w 16 11) (bits w 10 4) (bits w 3 0))
  else if op = 0xE0 then whenUnused op (true) (.ralc (bits w 23 17) (bits w 16 11) (bits w 10 4) (bits w 3 0))
  else if op = 0xE1 then whenUnused op (bits w 23 17 == 0) (.rcmt (bits w 16 11) (bits w 10 4) (bits w 3 0))
  else if op = 0xE2 then whenUnused op (bits w 10 4 == 0) (.rget (bits w 23 17) (bits w 16 11) (bits w 3 0))
  else if op = 0xE3 then whenUnused op (bits w 23 17 == 0) (.prim (bits w 16 11) (bits w 10 4) (bits w 3 0))
  else if op = 0xE4 then whenUnused op (true) (.tex (bits w 23 17) (bits w 16 11) (bits w 10 4) (bits w 3 0))
  else .error (.reservedOpcode op)

/-- The instruction a 32-bit word names, or why it names none (check 1 of R91). Which field values an entry allows is
`WellFormed`'s matter. -/
def decodeWord (w : Nat) : Except Reject Instr :=
  let op := bits w 31 24
  if op < 0x19 then decodeControl op w
  else if op < 0x40 then decodeScalar op w
  else if op < 0x60 then decodeInteger op w
  else if op < 0x80 then decodeFloat op w
  else if op < 0xA0 then decodeCross op w
  else if op < 0xD0 then decodeMemory op w
  else decodeEngine op w

/-- The micro-operation a microword names, or why it names none (R257 to R259). -/
def decodeMicro (w : Nat) : Except Reject Instr :=
  let op := bits w 31 27
  if op = 1 then whenUnused op (bits w 26 0 == 0) (.uNload)
  else if op = 2 then whenUnused op (bits w 26 0 == 0) (.uBoxn)
  else if op = 3 then whenUnused op (bits w 26 0 == 0) (.uTrin)
  else if op = 4 then whenUnused op (bits w 26 0 == 0) (.uSphn)
  else if op = 5 then whenUnused op (bits w 26 0 == 0) (.uOrdn)
  else if op = 6 then whenUnused op (bits w 26 0 == 0) (.uPushn)
  else if op = 7 then whenUnused op (bits w 26 0 == 0) (.uPopn)
  else if op = 8 then whenUnused op (bits w 12 0 == 0 && bits w 26 24 == 0) (.uJmp (bits w 23 13))
  else if op = 9 then whenUnused op (true) (.uJz (bits w 26 24) (bits w 23 13) (bits w 12 0))
  else if op = 10 then whenUnused op (true) (.uJnz (bits w 26 24) (bits w 23 13) (bits w 12 0))
  else if op = 11 then whenUnused op (bits w 26 24 == 0) (.uLeaf (bits w 23 13) (bits w 12 0))
  else if op = 12 then whenUnused op (bits w 26 0 == 0) (.uNextp)
  else if op = 13 then whenUnused op (bits w 23 0 == 0) (.uHitc (bits w 26 24))
  else if op = 14 then whenUnused op (bits w 26 0 == 0) (.uAnyh)
  else if op = 15 then whenUnused op (bits w 26 0 == 0) (.uXfrm)
  else if op = 16 then whenUnused op (bits w 26 0 == 0) (.uXret)
  else if op = 17 then whenUnused op (bits w 26 13 == 0) (.uSetf (bits w 12 0))
  else if op = 18 then whenUnused op (bits w 26 13 == 0) (.uClrf (bits w 12 0))
  else if op = 19 then whenUnused op (bits w 23 13 == 0) (.uCntr (bits w 26 24) (bits w 12 0))
  else if op = 20 then whenUnused op (bits w 26 0 == 0) (.uMiss)
  else if op = 21 then whenUnused op (bits w 26 0 == 0) (.uDone)
  else if op = 22 then whenUnused op (bits w 26 13 == 0) (.uFaultx (bits w 12 0))
  else .error (.reservedOpcode op)

/-- The little-endian value of a list of bytes (R77, R314). -/
def leNat : List Byte → Nat
  | [] => 0
  | b :: bs => b.toNat + 256 * leNat bs

/-- The n little-endian bytes of a value. -/
def leBytes : Nat → Nat → List Byte
  | 0, _ => []
  | n + 1, v => BitVec.ofNat 8 v :: leBytes n (v / 256)

/-- Four bytes as they stand in memory, decoded as a kernel word, with the bytes that follow (R77). -/
def decodeBytes : List Byte → Except Reject (Instr × List Byte)
  | b0 :: b1 :: b2 :: b3 :: rest => (decodeWord (leNat [b0, b1, b2, b3])).map (·, rest)
  | _ => .error .tooShort

/-- The same four bytes decoded as a microword (R257). -/
def decodeMicroBytes : List Byte → Except Reject (Instr × List Byte)
  | b0 :: b1 :: b2 :: b3 :: rest => (decodeMicro (leNat [b0, b1, b2, b3])).map (·, rest)
  | _ => .error .tooShort

/-- The words of an instruction or a micro-operation: every row of the encoding tables R90 and R258, as the number the
opcode occupies and each field with the bit it starts at. Events have no word. -/
def encodingOf : Instr → Option (Nat × List (Nat × Nat))
  | .nop => some (0x01000000, [])
  | .setm m => some (0x02000000, [(m, 0)])
  | .bra p n tgt rcv => some (0x03000000, [(p, 21), (n, 20), (tgt, 10), (rcv, 0)])
  | .bru p n tgt rcv => some (0x04000000, [(p, 21), (n, 20), (tgt, 10), (rcv, 0)])
  | .jmps a => some (0x05000000, [(a, 10)])
  | .call p n tgt => some (0x06000000, [(p, 21), (n, 20), (tgt, 10)])
  | .calls a => some (0x07000000, [(a, 10)])
  | .ret => some (0x08000000, [])
  | .sync rcv => some (0x09000000, [(rcv, 0)])
  | .exit => some (0x0A000000, [])
  | .trap imm => some (0x0B000000, [(imm, 0)])
  | .tret => some (0x0C000000, [])
  | .ppt imm => some (0x0D000000, [(imm, 0)])
  | .yield => some (0x0E000000, [])
  | .rscope imm => some (0x0F000000, [(imm, 0)])
  | .rsend => some (0x10000000, [])
  | .execr d => some (0x11000000, [(d, 17)])
  | .execw a => some (0x12000000, [(a, 10)])
  | .sprr d imm => some (0x13000000, [(d, 17), (imm, 0)])
  | .sprw a imm => some (0x14000000, [(a, 10), (imm, 0)])
  | .clkr d => some (0x15000000, [(d, 18)])
  | .ufirst d a => some (0x16000000, [(d, 17), (a, 10)])
  | .uchk a => some (0x17000000, [(a, 10)])
  | .ulane d a imm => some (0x18000000, [(d, 17), (a, 10), (imm, 0)])
  | .sadd d a b => some (0x19000000, [(d, 17), (a, 10), (b, 3)])
  | .ssub d a b => some (0x1A000000, [(d, 17), (a, 10), (b, 3)])
  | .smul d a b => some (0x1B000000, [(d, 17), (a, 10), (b, 3)])
  | .sand d a b => some (0x1C000000, [(d, 17), (a, 10), (b, 3)])
  | .sor d a b => some (0x1D000000, [(d, 17), (a, 10), (b, 3)])
  | .sxor d a b => some (0x1E000000, [(d, 17), (a, 10), (b, 3)])
  | .sshl d a b => some (0x1F000000, [(d, 17), (a, 10), (b, 3)])
  | .sshr d a b => some (0x20000000, [(d, 17), (a, 10), (b, 3)])
  | .ssar d a b => some (0x21000000, [(d, 17), (a, 10), (b, 3)])
  | .smov d a => some (0x22000000, [(d, 17), (a, 10)])
  | .smulh d a b f => some (0x23000000, [(d, 17), (a, 10), (b, 3), (f, 0)])
  | .smin d a b f => some (0x24000000, [(d, 17), (a, 10), (b, 3), (f, 0)])
  | .smax d a b f => some (0x25000000, [(d, 17), (a, 10), (b, 3), (f, 0)])
  | .scmp d a b f => some (0x26000000, [(d, 17), (a, 10), (b, 3), (f, 0)])
  | .qop d a b f => some (0x27000000, [(d, 17), (a, 10), (b, 3), (f, 0)])
  | .smovi d imm => some (0x28000000, [(d, 18), (imm, 0)])
  | .smovh d imm => some (0x29000000, [(d, 18), (imm, 0)])
  | .sld d a k la => some (0x2A000000, [(d, 17), (a, 10), (k, 4), (la, 0)])
  | .sst d a k la => some (0x2B000000, [(d, 17), (a, 10), (k, 4), (la, 0)])
  | .iadd d a b => some (0x40000000, [(d, 17), (a, 10), (b, 3)])
  | .isub d a b => some (0x41000000, [(d, 17), (a, 10), (b, 3)])
  | .imul d a b => some (0x42000000, [(d, 17), (a, 10), (b, 3)])
  | .imulh d a b => some (0x43000000, [(d, 17), (a, 10), (b, 3)])
  | .imad d a b => some (0x44000000, [(d, 17), (a, 10), (b, 3)])
  | .imin d a b => some (0x45000000, [(d, 17), (a, 10), (b, 3)])
  | .imax d a b => some (0x46000000, [(d, 17), (a, 10), (b, 3)])
  | .iabs d a => some (0x47000000, [(d, 17), (a, 10)])
  | .vand d a b => some (0x48000000, [(d, 17), (a, 10), (b, 3)])
  | .vor d a b => some (0x49000000, [(d, 17), (a, 10), (b, 3)])
  | .vxor d a b => some (0x4A000000, [(d, 17), (a, 10), (b, 3)])
  | .vandn d a b => some (0x4B000000, [(d, 17), (a, 10), (b, 3)])
  | .shl d a b => some (0x4C000000, [(d, 17), (a, 10), (b, 3)])
  | .shr d a b => some (0x4D000000, [(d, 17), (a, 10), (b, 3)])
  | .sar d a b => some (0x4E000000, [(d, 17), (a, 10), (b, 3)])
  | .popc d a => some (0x4F000000, [(d, 17), (a, 10)])
  | .clz d a => some (0x50000000, [(d, 17), (a, 10)])
  | .brev d a => some (0x51000000, [(d, 17), (a, 10)])
  | .bfe d a b => some (0x52000000, [(d, 17), (a, 10), (b, 3)])
  | .bfi d a b => some (0x53000000, [(d, 17), (a, 10), (b, 3)])
  | .icmp d a b f => some (0x54000000, [(d, 17), (a, 10), (b, 3), (f, 0)])
  | .sel d a b f => some (0x55000000, [(d, 17), (a, 10), (b, 3), (f, 0)])
  | .mov d a => some (0x56000000, [(d, 17), (a, 10)])
  | .movi d imm => some (0x57000000, [(d, 17), (imm, 0)])
  | .lea d a b f => some (0x58000000, [(d, 17), (a, 10), (b, 3), (f, 0)])
  | .plop d a b f => some (0x59000000, [(d, 17), (a, 10), (b, 3), (f, 0)])
  | .iaddImm d a imm => some (0x5A000000, [(d, 17), (a, 10), (imm, 0)])
  | .andImm d a imm => some (0x5B000000, [(d, 17), (a, 10), (imm, 0)])
  | .orImm d a imm => some (0x5C000000, [(d, 17), (a, 10), (imm, 0)])
  | .shlImm d a imm => some (0x5D000000, [(d, 17), (a, 10), (imm, 0)])
  | .shrImm d a imm => some (0x5E000000, [(d, 17), (a, 10), (imm, 0)])
  | .sarImm d a imm => some (0x5F000000, [(d, 17), (a, 10), (imm, 0)])
  | .fadd d a b => some (0x60000000, [(d, 17), (a, 10), (b, 3)])
  | .fsub d a b => some (0x61000000, [(d, 17), (a, 10), (b, 3)])
  | .fmul d a b => some (0x62000000, [(d, 17), (a, 10), (b, 3)])
  | .ffma d a b => some (0x63000000, [(d, 17), (a, 10), (b, 3)])
  | .fmin d a b => some (0x64000000, [(d, 17), (a, 10), (b, 3)])
  | .fmax d a b => some (0x65000000, [(d, 17), (a, 10), (b, 3)])
  | .fabs d a => some (0x66000000, [(d, 17), (a, 10)])
  | .fneg d a => some (0x67000000, [(d, 17), (a, 10)])
  | .fcmp d a b f => some (0x68000000, [(d, 17), (a, 10), (b, 3), (f, 0)])
  | .fcvt d a b => some (0x69000000, [(d, 17), (a, 10), (b, 3)])
  | .frint d a => some (0x6A000000, [(d, 17), (a, 10)])
  | .fclass d a => some (0x6B000000, [(d, 17), (a, 10)])
  | .fsat d a => some (0x6C000000, [(d, 17), (a, 10)])
  | .rcp d a => some (0x70000000, [(d, 17), (a, 10)])
  | .rsq d a => some (0x71000000, [(d, 17), (a, 10)])
  | .sqrt d a => some (0x72000000, [(d, 17), (a, 10)])
  | .ex2 d a => some (0x73000000, [(d, 17), (a, 10)])
  | .lg2 d a => some (0x74000000, [(d, 17), (a, 10)])
  | .sin d a => some (0x75000000, [(d, 17), (a, 10)])
  | .cos d a => some (0x76000000, [(d, 17), (a, 10)])
  | .tanh d a => some (0x77000000, [(d, 17), (a, 10)])
  | .sigm d a => some (0x78000000, [(d, 17), (a, 10)])
  | .tseed d a f => some (0x80000000, [(d, 17), (a, 10), (f, 0)])
  | .tget d a f => some (0x81000000, [(d, 17), (a, 10), (f, 0)])
  | .tset d a f => some (0x82000000, [(d, 17), (a, 10), (f, 0)])
  | .tclr d => some (0x83000000, [(d, 17)])
  | .tlin d a b => some (0x84000000, [(d, 17), (a, 10), (b, 3)])
  | .tfoot d a b => some (0x85000000, [(d, 17), (a, 10), (b, 3)])
  | .tflag d a => some (0x86000000, [(d, 17), (a, 10)])
  | .shfl d a b f => some (0x90000000, [(d, 17), (a, 10), (b, 3), (f, 0)])
  | .ballot d a => some (0x91000000, [(d, 17), (a, 10)])
  | .eqmask d a => some (0x92000000, [(d, 17), (a, 10)])
  | .redu d a f => some (0x93000000, [(d, 17), (a, 10), (f, 0)])
  | .minidx d a f => some (0x94000000, [(d, 17), (a, 10), (f, 0)])
  | .scan d a b f => some (0x95000000, [(d, 17), (a, 10), (b, 3), (f, 0)])
  | .welf d a b => some (0x96000000, [(d, 17), (a, 10), (b, 3)])
  | .smxm d a b => some (0x97000000, [(d, 17), (a, 10), (b, 3)])
  | .smxn d a b f => some (0x98000000, [(d, 17), (a, 10), (b, 3), (f, 0)])
  | .ldU8 d a k la => some (0xA0000000, [(d, 17), (a, 10), (k, 4), (la, 0)])
  | .ldS8 d a k la => some (0xA1000000, [(d, 17), (a, 10), (k, 4), (la, 0)])
  | .ldU16 d a k la => some (0xA2000000, [(d, 17), (a, 10), (k, 4), (la, 0)])
  | .ldS16 d a k la => some (0xA3000000, [(d, 17), (a, 10), (k, 4), (la, 0)])
  | .ldB32 d a k la => some (0xA4000000, [(d, 17), (a, 10), (k, 4), (la, 0)])
  | .ldB64 d a k la => some (0xA5000000, [(d, 17), (a, 10), (k, 4), (la, 0)])
  | .ldB128 d a k la => some (0xA6000000, [(d, 17), (a, 10), (k, 4), (la, 0)])
  | .stB8 d a k la => some (0xA8000000, [(d, 17), (a, 10), (k, 4), (la, 0)])
  | .stB16 d a k la => some (0xA9000000, [(d, 17), (a, 10), (k, 4), (la, 0)])
  | .stB32 d a k la => some (0xAA000000, [(d, 17), (a, 10), (k, 4), (la, 0)])
  | .stB64 d a k la => some (0xAB000000, [(d, 17), (a, 10), (k, 4), (la, 0)])
  | .stB128 d a k la => some (0xAC000000, [(d, 17), (a, 10), (k, 4), (la, 0)])
  | .ldt d a k la => some (0xAD000000, [(d, 17), (a, 10), (k, 4), (la, 0)])
  | .stt d a k la => some (0xAE000000, [(d, 17), (a, 10), (k, 4), (la, 0)])
  | .prf a k la => some (0xAF000000, [(a, 10), (k, 4), (la, 0)])
  | .atom d a k la => some (0xB0000000, [(d, 17), (a, 10), (k, 4), (la, 0)])
  | .red d a k la => some (0xB1000000, [(d, 17), (a, 10), (k, 4), (la, 0)])
  | .fence rel acq scope => some (0xB2000000, [(rel, 4), (acq, 3), (scope, 0)])
  | .xfence m => some (0xB3000000, [(m, 0)])
  | .waitp a f => some (0xB4000000, [(a, 10), (f, 0)])
  | .bar a b => some (0xB5000000, [(a, 10), (b, 3)])
  | .bara d a b => some (0xB6000000, [(d, 17), (a, 10), (b, 3)])
  | .barw a b => some (0xB7000000, [(a, 10), (b, 3)])
  | .cbar => some (0xB8000000, [])
  | .cbwait a b => some (0xB9000000, [(a, 10), (b, 3)])
  | .ldcb a b => some (0xBA000000, [(a, 10), (b, 3)])
  | .marm a k la => some (0xBB000000, [(a, 10), (k, 4), (la, 0)])
  | .mwait a => some (0xBC000000, [(a, 10)])
  | .txb d => some (0xBD000000, [(d, 18)])
  | .txc => some (0xBE000000, [])
  | .txa tgt => some (0xBF000000, [(tgt, 10)])
  | .skid d h la => some (0xD0000000, [(d, 17), (h, 11), (la, 0)])
  | .skidg d h a la => some (0xD1000000, [(d, 17), (h, 11), (a, 4), (la, 0)])
  | .kmma d h a la => some (0xD2000000, [(d, 17), (h, 11), (a, 4), (la, 0)])
  | .kmmaPair d h a la => some (0xD3000000, [(d, 17), (h, 11), (a, 4), (la, 0)])
  | .kdrn d h a la => some (0xD4000000, [(d, 17), (h, 11), (a, 4), (la, 0)])
  | .kzero d la => some (0xD5000000, [(d, 17), (la, 0)])
  | .kstat d a la => some (0xD6000000, [(d, 17), (a, 4), (la, 0)])
  | .cruz d h a la => some (0xD7000000, [(d, 17), (h, 11), (a, 4), (la, 0)])
  | .crget d a la => some (0xD8000000, [(d, 17), (a, 4), (la, 0)])
  | .crld d h la => some (0xD9000000, [(d, 17), (h, 11), (la, 0)])
  | .cnop d a la => some (0xDA000000, [(d, 17), (a, 4), (la, 0)])
  | .cnad d a la => some (0xDB000000, [(d, 17), (a, 4), (la, 0)])
  | .cnrd d a la => some (0xDC000000, [(d, 17), (a, 4), (la, 0)])
  | .cncl d a la => some (0xDD000000, [(d, 17), (a, 4), (la, 0)])
  | .cnaj d h a la => some (0xDE000000, [(d, 17), (h, 11), (a, 4), (la, 0)])
  | .sortk d h a la => some (0xDF000000, [(d, 17), (h, 11), (a, 4), (la, 0)])
  | .ralc d h a la => some (0xE0000000, [(d, 17), (h, 11), (a, 4), (la, 0)])
  | .rcmt h a la => some (0xE1000000, [(h, 11), (a, 4), (la, 0)])
  | .rget d h la => some (0xE2000000, [(d, 17), (h, 11), (la, 0)])
  | .prim h a la => some (0xE3000000, [(h, 11), (a, 4), (la, 0)])
  | .tex d h a la => some (0xE4000000, [(d, 17), (h, 11), (a, 4), (la, 0)])
  | .uNload => some (0x08000000, [])
  | .uBoxn => some (0x10000000, [])
  | .uTrin => some (0x18000000, [])
  | .uSphn => some (0x20000000, [])
  | .uOrdn => some (0x28000000, [])
  | .uPushn => some (0x30000000, [])
  | .uPopn => some (0x38000000, [])
  | .uJmp tgt => some (0x40000000, [(tgt, 13)])
  | .uJz c tgt imm => some (0x48000000, [(c, 24), (tgt, 13), (imm, 0)])
  | .uJnz c tgt imm => some (0x50000000, [(c, 24), (tgt, 13), (imm, 0)])
  | .uLeaf tgt imm => some (0x58000000, [(tgt, 13), (imm, 0)])
  | .uNextp => some (0x60000000, [])
  | .uHitc c => some (0x68000000, [(c, 24)])
  | .uAnyh => some (0x70000000, [])
  | .uXfrm => some (0x78000000, [])
  | .uXret => some (0x80000000, [])
  | .uSetf imm => some (0x88000000, [(imm, 0)])
  | .uClrf imm => some (0x90000000, [(imm, 0)])
  | .uCntr c imm => some (0x98000000, [(c, 24), (imm, 0)])
  | .uMiss => some (0xA0000000, [])
  | .uDone => some (0xA8000000, [])
  | .uFaultx imm => some (0xB0000000, [(imm, 0)])
  | .evIllegalWord _ => none
  | .evMemoryAccessPerform _ => none
  | .evLoadSectorReturn _ _ => none
  | .evTranslationWalk _ _ => none
  | .evReleaseWindow _ => none
  | .evKerfFetch _ => none
  | .evKerfSlot _ => none
  | .evKerfPromotion _ => none
  | .evKdrnDrain _ => none
  | .evKzeroClear _ => none
  | .evKstatReport _ => none
  | .evSkidderCopy _ => none
  | .evCanopyLaneStep _ => none
  | .evRayTakeUp _ _ => none
  | .evRayDelivery _ => none
  | .evRasterSampleUpdate _ => none
  | .evTextureReturn _ _ => none
  | .evRalcServe _ => none
  | .evRalcStallExpiry _ => none
  | .evBatchTimeout _ => none
  | .evRecordReturn _ => none
  | .evRscopePressure _ => none
  | .evScopeServe _ => none
  | .evYieldExpiry _ => none
  | .evWatchdog _ => none
  | .evFullSaveEscalation _ => none
  | .evTeamSave _ => none
  | .evTeamRestore _ => none
  | .evTeamPlacement _ => none
  | .evLaunchPacket _ => none
  | .evLaunchCompletion _ => none
  | .evLqbell _ => none
  | .evPreemptRequest _ => none
  | .evPreemptCancel _ => none
  | .evPrcntRead => none
  | .evTlbInvalidateVa => none
  | .evTlbInvalidateContext => none
  | .evTlbInvalidateAll => none
  | .evTlbInvalidateDone => none
  | .evIcacheInvalidateVa => none
  | .evIcacheInvalidateContext => none
  | .evIcacheInvalidateAll => none
  | .evIcacheInvalidateDone => none
  | .evTkill _ => none
  | .evFaultResponse _ => none
  | .evFaultResponseFail _ => none
  | .evFaultQueueEntry => none
  | .evFaultQueueDisable => none
  | .evCecntClear => none
  | .evUecntClear => none
  | .evFsetWrite _ _ => none
  | .evFrequencyChange _ => none
  | .evBudgetWindow => none
  | .evScrub _ _ => none
  | .evCoreStateUncorrectable _ _ _ => none
  | .evProtectiveTrip => none
  | .evDeviceReset => none
  | .evDieReady _ _ => none
  | .evStackReady _ _ => none
  | .evPortReady _ _ => none
  | .evFirmwareUpdate _ _ _ => none
  | .evPtpSync _ => none
  | .evPortDown _ => none
  | .evHostCxlMemWrite _ _ => none
  | .evRegisterWrite _ _ _ => none
  | .evIllegalMicroword _ => none
  | .evPeerMemoryAccess _ _ _ => none

/-- The word of an instruction or micro-operation: the opcode and the fields at their places. -/
def encode (i : Instr) : Option Nat :=
  (encodingOf i).map fun e => e.2.foldl (fun w fb => w + fb.1 * 2 ^ fb.2) e.1

/-- The four bytes of an instruction or micro-operation, as they stand in memory (R77, R257). -/
def encodeBytes (i : Instr) : List Byte :=
  match encode i with
  | some w => leBytes 4 w
  | none => []

/-- What the decoder reads from `nbits` bits `w` of the opcode table's numbering: the word's bytes, lowest first, read as
a kernel word, and as a microword where no kernel word has that value. -/
def decodeTableWord (nbits w : Nat) : Option Instr :=
  let bytes := leBytes 4 (w % 2 ^ nbits)
  match decodeBytes bytes with
  | .ok (i, _) => some i
  | .error _ =>
    match decodeMicroBytes bytes with
    | .ok (i, _) => some i
    | .error _ => none

end Sys2Proof
end

