-- ==== Sys2Proof/Machine/Sparse.lean ====
section
/-!
DEFINITION. Sparse stores: pairs of a key and a value with keys strictly rising, and no pair whose value is what an
unlisted key reads as, so that equal stores are equal lists. Memory and the register files are such stores.
-/
namespace Sys2Proof.Machine

/-- The value at a key; `d` where none is listed. -/
def sget {α : Type} (d : α) : Sparse α → Nat → α
  | [], _ => d
  | (k, v) :: rest, q => if q = k then v else sget d rest q

/-- The store with a value at a key, in its place among the keys. -/
def splace {α : Type} : Sparse α → Nat → α → Sparse α
  | [], q, v => [(q, v)]
  | (k, x) :: rest, q, v =>
    if q < k then (q, v) :: (k, x) :: rest else if q = k then (q, v) :: rest else (k, x) :: splace rest q v

/-- The pairs whose key a test keeps. -/
def skeep {α : Type} (p : Nat → Bool) (m : Sparse α) : Sparse α := m.filter fun kv => p kv.1

/-- The store with `v` at a key; writing `d` removes the pair. -/
def sset {α : Type} [DecidableEq α] (d : α) (m : Sparse α) (q : Nat) (v : α) : Sparse α :=
  if v = d then skeep (fun k => k != q) m else splace m q v

/-- Every key of the store is at least `lo`, keys rise, and no default value is listed. -/
def swfFrom {α : Type} [DecidableEq α] (d : α) : Nat → Sparse α → Bool
  | _, [] => true
  | lo, (k, v) :: rest => decide (lo ≤ k) && decide (v ≠ d) && swfFrom d (k + 1) rest

/-- The canonical form. -/
def swf {α : Type} [DecidableEq α] (d : α) (m : Sparse α) : Bool := swfFrom d 0 m

/-- The store with several pairs written, left to right. -/
def ssets {α : Type} [DecidableEq α] (d : α) (m : Sparse α) : List (Nat × α) → Sparse α
  | [] => m
  | (k, v) :: rest => ssets d (sset d m k v) rest

end Sys2Proof.Machine
end

