-- ==== Sys2Proof/Machine/Shape.lean ====
section
/-!
DEFINITION. What each instruction names: its register fields and their lengths, the guard, how it consults MR, its path
and window, whether it waits and whether a transaction allows it; and the limits of its fields (R78 to R84, R88, R90, R91
checks 2, 3 and 5, R143, R144, R217, R220). One table serves the well-formedness of a word, the issue checks and LOOKAHEAD.
-/
namespace Sys2Proof

/-- How an instruction consults MR.ET (R144): not at all; under any defined type; a float type; F32 alone. -/
inductive EtClass where
  | free | byEt | float | f32
deriving DecidableEq, Repr

/-- How an instruction consults MR.RM (R23): never; always; when planes are propagated; under a float ET. -/
inductive RmClass where
  | never | always | underTe | floatEt
deriving DecidableEq, Repr

/-- The seven access paths, in the order of R201. -/
inductive Path where
  | ls | sk | kf | cr | cn | ra | tx
deriving DecidableEq, Repr

/-- A path's number in XFENCE and WAITP (R201, R203). -/
def Path.num : Path → Nat
  | .ls => 0 | .sk => 1 | .kf => 2 | .cr => 3 | .cn => 4 | .ra => 5 | .tx => 6

/-- The seven paths in order. -/
def Path.all : List Path := [.ls, .sk, .kf, .cr, .cn, .ra, .tx]

/-- What an instruction names. A pair is a first register and a count. -/
structure Shape where
  /-- Vector source fields; 112 to 127 read s0 to s15 (R16). -/
  vs : List (Nat × Nat) := []
  /-- Registers read that must be vector registers: prior destinations and engine operands. -/
  vo : List (Nat × Nat) := []
  /-- Vector destinations (R18). -/
  vd : List (Nat × Nat) := []
  /-- Scalars read. -/
  ss : List (Nat × Nat) := []
  /-- Scalars written. -/
  sd : List (Nat × Nat) := []
  /-- Lane predicates read, beside the guard. -/
  ps : List Nat := []
  /-- Lane predicates written. -/
  pd : List Nat := []
  /-- Uniform predicates read. -/
  qs : List Nat := []
  /-- Uniform predicates written. -/
  qd : List Nat := []
  /-- The active set takes MR.G and MR.GN (R26). -/
  guard : Bool := false
  /-- How ET is consulted (R144). -/
  et : EtClass := .free
  /-- How RM is consulted (R23). -/
  rm : RmClass := .never
  /-- The plane the word names (R10). -/
  plane : Option Nat := none
  /-- It waits for the fragment's pending operations (R88). -/
  waits : Bool := false
  /-- The path it counts on (R183, R221). -/
  path : Option Path := none
  /-- The window length of an L- or E-format instruction (R85). -/
  la : Option Nat := none
  /-- An open transaction allows it (R217). -/
  tx : Bool := true
deriving DecidableEq, Repr

/-- The offset field of a memory operand: 127 adds zero and names nothing (R89). -/
def offset (a : Nat) : List (Nat × Nat) := if a = 127 then [] else [(a, 1)]

/-- What each instruction names. -/
def shape : Instr → Shape
  | .nop => {}
  | .setm _ => {}
  | .bra p _ _ _ => { ps := [p] }
  | .bru p _ _ _ => { qs := [p] }
  | .jmps a => { ss := [(a, 2)] }
  | .call p _ _ => { ps := [p], waits := true, tx := false }
  | .calls a => { ss := [(a, 2)], waits := true, tx := false }
  | .ret => { waits := true, tx := false }
  | .sync _ => { waits := true, tx := false }
  | .exit => { waits := true, tx := false }
  | .trap _ => { waits := true, tx := false }
  | .tret => { waits := true }
  | .ppt _ => { waits := true, tx := false }
  | .yield => { waits := true, tx := false }
  | .rscope _ => { waits := true, tx := false }
  | .rsend => { waits := true, tx := false }
  | .execr d => { sd := [(d, 1)] }
  | .execw a => { ss := [(a, 1)], waits := true, tx := false }
  | .sprr d imm => if imm == 0 || imm == 9 then { vd := [(d, 1)], guard := true } else { sd := [(d, 1)] }
  | .sprw a imm => if imm == 9 then { vs := [(a, 1)], guard := true } else { ss := [(a, 1)] }
  | .clkr d => { sd := [(d, 2)] }
  | .ufirst d a => { vs := [(a, 1)], sd := [(d, 1)], guard := true }
  | .uchk a => { vs := [(a, 1)], guard := true }
  | .ulane d a _ => { vs := [(a, 1)], sd := [(d, 1)] }
  | .sadd d a b => { ss := [(a, 1), (b, 1)], sd := [(d, 1)] }
  | .ssub d a b => { ss := [(a, 1), (b, 1)], sd := [(d, 1)] }
  | .smul d a b => { ss := [(a, 1), (b, 1)], sd := [(d, 1)] }
  | .sand d a b => { ss := [(a, 1), (b, 1)], sd := [(d, 1)] }
  | .sor d a b => { ss := [(a, 1), (b, 1)], sd := [(d, 1)] }
  | .sxor d a b => { ss := [(a, 1), (b, 1)], sd := [(d, 1)] }
  | .sshl d a b => { ss := [(a, 1), (b, 1)], sd := [(d, 1)] }
  | .sshr d a b => { ss := [(a, 1), (b, 1)], sd := [(d, 1)] }
  | .ssar d a b => { ss := [(a, 1), (b, 1)], sd := [(d, 1)] }
  | .smov d a => { ss := [(a, 1)], sd := [(d, 1)] }
  | .smulh d a b _ => { ss := [(a, 1), (b, 1)], sd := [(d, 1)] }
  | .smin d a b _ => { ss := [(a, 1), (b, 1)], sd := [(d, 1)] }
  | .smax d a b _ => { ss := [(a, 1), (b, 1)], sd := [(d, 1)] }
  | .scmp d a b _ => { ss := [(a, 1), (b, 1)], qd := [d] }
  | .qop d a b f => { qs := if f == 4 || f == 5 then [a] else [a, b], qd := [d] }
  | .smovi d _ => { sd := [(d, 1)] }
  | .smovh d _ => { ss := [(d, 1)], sd := [(d, 1)] }
  | .sld d _ k la => { ss := [(k, 2)], sd := [(d, 1)], path := some .ls, la := some la }
  | .sst d _ k la => { ss := [(k, 2), (d, 1)], path := some .ls, la := some la }
  | .iadd d a b => { vs := [(a, 1), (b, 1)], vd := [(d, 1)], guard := true, et := .byEt }
  | .isub d a b => { vs := [(a, 1), (b, 1)], vd := [(d, 1)], guard := true, et := .byEt }
  | .imul d a b => { vs := [(a, 1), (b, 1)], vd := [(d, 1)], guard := true, et := .byEt }
  | .imulh d a b => { vs := [(a, 1), (b, 1)], vd := [(d, 1)], guard := true, et := .byEt }
  | .imad d a b => { vs := [(a, 1), (b, 1)], vd := [(d, 1)], vo := [(d, 1)], guard := true, et := .byEt }
  | .imin d a b => { vs := [(a, 1), (b, 1)], vd := [(d, 1)], guard := true, et := .byEt }
  | .imax d a b => { vs := [(a, 1), (b, 1)], vd := [(d, 1)], guard := true, et := .byEt }
  | .iabs d a => { vs := [(a, 1)], vd := [(d, 1)], guard := true, et := .byEt }
  | .vand d a b => { vs := [(a, 1), (b, 1)], vd := [(d, 1)], guard := true, et := .free }
  | .vor d a b => { vs := [(a, 1), (b, 1)], vd := [(d, 1)], guard := true, et := .free }
  | .vxor d a b => { vs := [(a, 1), (b, 1)], vd := [(d, 1)], guard := true, et := .free }
  | .vandn d a b => { vs := [(a, 1), (b, 1)], vd := [(d, 1)], guard := true, et := .free }
  | .shl d a b => { vs := [(a, 1), (b, 1)], vd := [(d, 1)], guard := true, et := .byEt }
  | .shr d a b => { vs := [(a, 1), (b, 1)], vd := [(d, 1)], guard := true, et := .byEt }
  | .sar d a b => { vs := [(a, 1), (b, 1)], vd := [(d, 1)], guard := true, et := .byEt }
  | .popc d a => { vs := [(a, 1)], vd := [(d, 1)], guard := true }
  | .clz d a => { vs := [(a, 1)], vd := [(d, 1)], guard := true }
  | .brev d a => { vs := [(a, 1)], vd := [(d, 1)], guard := true }
  | .bfe d a b => { vs := [(a, 1), (b, 1)], vd := [(d, 1)], guard := true, et := .free }
  | .bfi d a b => { vs := [(a, 1), (b, 1)], vd := [(d, 1)], vo := [(d, 1)], guard := true, et := .free }
  | .icmp d a b _ => { vs := [(a, 1), (b, 1)], pd := [d], guard := true, et := .byEt }
  | .sel d a b f => { vs := [(a, 1), (b, 1)], vd := [(d, 1)], ps := [f], guard := true }
  | .mov d a => { vs := [(a, 1)], vd := [(d, 1)], guard := true }
  | .movi d _ => { vd := [(d, 1)], guard := true }
  | .lea d a b _ => { vs := [(a, 1), (b, 1)], vd := [(d, 1)], guard := true, et := .free }
  | .plop d a b f => { ps := if f == 4 || f == 5 then [a] else [a, b], pd := [d], guard := true }
  | .iaddImm d a _ => { vs := [(a, 1)], vd := [(d, 1)], guard := true, et := .byEt }
  | .andImm d a _ => { vs := [(a, 1)], vd := [(d, 1)], guard := true }
  | .orImm d a _ => { vs := [(a, 1)], vd := [(d, 1)], guard := true }
  | .shlImm d a _ => { vs := [(a, 1)], vd := [(d, 1)], guard := true, et := .byEt }
  | .shrImm d a _ => { vs := [(a, 1)], vd := [(d, 1)], guard := true, et := .byEt }
  | .sarImm d a _ => { vs := [(a, 1)], vd := [(d, 1)], guard := true, et := .byEt }
  | .fadd d a b => { vs := [(a, 1), (b, 1)], vd := [(d, 1)], guard := true, et := .float, rm := .always }
  | .fsub d a b => { vs := [(a, 1), (b, 1)], vd := [(d, 1)], guard := true, et := .float, rm := .always }
  | .fmul d a b => { vs := [(a, 1), (b, 1)], vd := [(d, 1)], guard := true, et := .float, rm := .always }
  | .ffma d a b => { vs := [(a, 1), (b, 1)], vd := [(d, 1)], vo := [(d, 1)], guard := true, et := .float, rm := .always }
  | .fmin d a b => { vs := [(a, 1), (b, 1)], vd := [(d, 1)], guard := true, et := .float }
  | .fmax d a b => { vs := [(a, 1), (b, 1)], vd := [(d, 1)], guard := true, et := .float }
  | .fabs d a => { vs := [(a, 1)], vd := [(d, 1)], guard := true, et := .float }
  | .fneg d a => { vs := [(a, 1)], vd := [(d, 1)], guard := true, et := .float }
  | .fcmp d a b _ => { vs := [(a, 1), (b, 1)], pd := [d], guard := true, et := .float }
  | .fcvt d a _ => { vs := [(a, 1)], vo := [(d, 1)], vd := [(d, 1)], guard := true, et := .byEt, rm := .always }
  | .frint d a => { vs := [(a, 1)], vd := [(d, 1)], guard := true, et := .float, rm := .always }
  | .fclass d a => { vs := [(a, 1)], vd := [(d, 1)], guard := true, et := .float }
  | .fsat d a => { vs := [(a, 1)], vd := [(d, 1)], guard := true, et := .float }
  | .rcp d a => { vs := [(a, 1)], vd := [(d, 1)], guard := true, et := .float, rm := .underTe }
  | .rsq d a => { vs := [(a, 1)], vd := [(d, 1)], guard := true, et := .float, rm := .underTe }
  | .sqrt d a => { vs := [(a, 1)], vd := [(d, 1)], guard := true, et := .float, rm := .always }
  | .ex2 d a => { vs := [(a, 1)], vd := [(d, 1)], guard := true, et := .float, rm := .underTe }
  | .lg2 d a => { vs := [(a, 1)], vd := [(d, 1)], guard := true, et := .float, rm := .underTe }
  | .sin d a => { vs := [(a, 1)], vd := [(d, 1)], guard := true, et := .float, rm := .underTe }
  | .cos d a => { vs := [(a, 1)], vd := [(d, 1)], guard := true, et := .float, rm := .underTe }
  | .tanh d a => { vs := [(a, 1)], vd := [(d, 1)], guard := true, et := .float, rm := .underTe }
  | .sigm d a => { vs := [(a, 1)], vd := [(d, 1)], guard := true, et := .float, rm := .underTe }
  | .tseed d a f => { vs := [(a, 1)], vd := [(d, 1)], guard := true, et := .float, plane := some f }
  | .tget d a f => { vs := [(a, 1)], vd := [(d, 1)], guard := true, plane := some f }
  | .tset d a f => { vs := [(a, 1)], vo := [(d, 1)], vd := [(d, 1)], guard := true, plane := some f }
  | .tclr d => { vo := [(d, 1)], vd := [(d, 1)], guard := true }
  | .tlin d a b => { vo := [(a, 1)], ss := [(b, 0)], vd := [(d, 1)], guard := true, et := .float, rm := .always }
  | .tfoot d a b => { vo := [(a, 2)], ss := [(b, 1)], vd := [(d, 1)], guard := true, et := .f32 }
  | .tflag d _ => { pd := [d], guard := true }
  | .shfl d a b _ => { vs := [(a, 1), (b, 1)], vd := [(d, 1)], guard := true, et := .free }
  | .ballot d a => { ps := [a], sd := [(d, 1)], guard := true }
  | .eqmask d a => { vs := [(a, 1)], sd := [(d, 1)], guard := true }
  | .redu d a f => { vs := [(a, 1)], vd := [(d, 1)], guard := true, et := .byEt, rm := if f == 0 then .floatEt else .never }
  | .minidx d a _ => { vs := [(a, 1)], vd := [(d, 1)], guard := true, et := .byEt }
  | .scan d a b f => { vs := [(a, 1), (b, 1)], vd := [(d, 1)], guard := true, et := .byEt, rm := if f / 2 == 0 then .floatEt else .never }
  | .welf d a b => { vs := [(a, 3), (b, 3)], vd := [(d, 3)], guard := true, et := .f32, rm := .underTe }
  | .smxm d a b => { vs := [(a, 2), (b, 2)], vd := [(d, 2)], guard := true, et := .f32, rm := .underTe }
  | .smxn d a b f => { vs := [(a, 1), (b, 2)], vd := [(d, 1)], pd := [f], guard := true, et := .f32, rm := .underTe }
  | .ldU8 d a k la => { vs := offset a, vd := [(d, 1)], ss := [(k, 2)], guard := true, path := some .ls, la := some la }
  | .ldS8 d a k la => { vs := offset a, vd := [(d, 1)], ss := [(k, 2)], guard := true, path := some .ls, la := some la }
  | .ldU16 d a k la => { vs := offset a, vd := [(d, 1)], ss := [(k, 2)], guard := true, path := some .ls, la := some la }
  | .ldS16 d a k la => { vs := offset a, vd := [(d, 1)], ss := [(k, 2)], guard := true, path := some .ls, la := some la }
  | .ldB32 d a k la => { vs := offset a, vd := [(d, 1)], ss := [(k, 2)], guard := true, path := some .ls, la := some la }
  | .ldB64 d a k la => { vs := offset a, vd := [(d, 2)], ss := [(k, 2)], guard := true, path := some .ls, la := some la }
  | .ldB128 d a k la => { vs := offset a, vd := [(d, 4)], ss := [(k, 2)], guard := true, path := some .ls, la := some la }
  | .stB8 d a k la => { vs := offset a ++ [(d, 1)], ss := [(k, 2)], guard := true, path := some .ls, la := some la }
  | .stB16 d a k la => { vs := offset a ++ [(d, 1)], ss := [(k, 2)], guard := true, path := some .ls, la := some la }
  | .stB32 d a k la => { vs := offset a ++ [(d, 1)], ss := [(k, 2)], guard := true, path := some .ls, la := some la }
  | .stB64 d a k la => { vs := offset a, vo := [(d, 2)], ss := [(k, 2)], guard := true, path := some .ls, la := some la }
  | .stB128 d a k la => { vs := offset a, vo := [(d, 4)], ss := [(k, 2)], guard := true, path := some .ls, la := some la }
  | .ldt d a k la => { vs := offset a, vd := [(d, 1)], ss := [(k, 2)], guard := true, path := some .ls, la := some la }
  | .stt d a k la => { vs := offset a, vo := [(d, 1)], ss := [(k, 2)], guard := true, path := some .ls, la := some la }
  | .prf a k la => { vs := offset a, ss := [(k, 2)], guard := true, la := some la }
  | .atom d a k la => { vs := offset a, vo := [(d, 1)], vd := [(d, 1)], tx := false, ss := [(k, 3)], guard := true, path := some .ls, la := some la }
  | .red d a k la => { vs := offset a ++ [(d, 1)], tx := false, ss := [(k, 3)], guard := true, path := some .ls, la := some la }
  | .fence _ _ _ => { tx := false }
  | .xfence _ => { tx := false }
  | .waitp a _ => { ss := [(a, 1)], tx := false }
  | .bar _ b => { ss := [(b, 1)], waits := true, tx := false }
  | .bara d _ b => { ss := [(b, 1)], sd := [(d, 1)], waits := true, tx := false }
  | .barw _ b => { ss := [(b, 1)], waits := true, tx := false }
  | .cbar => { waits := true, tx := false }
  | .cbwait a b => { ss := [(a, 1), (b, 1)], tx := false }
  | .ldcb a b => { ss := [(a, 1), (b, 1)], tx := false }
  | .marm a k la => { vs := offset a, tx := false, ss := [(k, 2)], guard := true, path := some .ls, la := some la }
  | .mwait a => { ss := [(a, 1)], tx := false }
  | .txb d => { sd := [(d, 1)], tx := false }
  | .txc => {}
  | .txa _ => {}
  | .skid d h la => { ss := [(d, 2), (h, 4)], tx := false, path := some .sk, la := some la }
  | .skidg d h a la => { ss := [(d, 2), (h, 4)], vo := [(a, 2)], guard := true, tx := false, path := some .sk, la := some la }
  | .kmma d h a la => { ss := [(d, 3), (h, 4)], vo := [(a, 16)], guard := true, tx := false, path := some .kf, la := some la }
  | .kmmaPair d h a la => { ss := [(d, 3), (h, 4)], vo := [(a, 16)], guard := true, tx := false, path := some .kf, la := some la }
  | .kdrn d h _ la => { ss := [(d, 8), (h, 4)], sd := [(d + 5, 1)], guard := true, tx := false, path := some .kf, la := some la }
  | .kzero _ la => { tx := false, path := some .kf, la := some la }
  | .kstat d _ la => { sd := [(d, 1)], tx := false, path := some .kf, la := some la }
  | .cruz d h a la => { ss := [(h, 4)], vo := [(a, 2)], vd := [(d, 6)], guard := true, tx := false, path := some .cr, la := some la }
  | .crget d a la => { vo := [(a, 2)], vd := [(d, 6)], guard := true, tx := false, path := some .cr, la := some la }
  | .crld d h la => { ss := [(d, 1), (h, 4)], tx := false, path := some .cr, la := some la }
  | .cnop d a la => { ss := [(d, 1)], vo := [(a, 2)], guard := true, tx := false, path := some .cn, la := some la }
  | .cnad d a la => { vo := [(a, 7)], vd := [(d, 1)], guard := true, tx := false, path := some .cn, la := some la }
  | .cnrd d a la => { vo := [(a, 1)], vd := [(d, 9)], guard := true, tx := false, path := some .cn, la := some la }
  | .cncl d a la => { ss := [(d, 1)], vo := [(a, 4)], guard := true, tx := false, path := some .cn, la := some la }
  | .cnaj d h a la => { ss := [(h, 4)], vo := [(a, 5)], vd := [(d, 1)], guard := true, tx := false, path := some .cn, la := some la }
  | .sortk d h a la => { ss := [(d, 1), (h, 4)], vo := [(a, 1)], guard := true, waits := true, tx := false, la := some la }
  | .ralc d h a la => { ss := [(h, 4)], vd := [(d, 2)], pd := [a], guard := true, tx := false, path := some .ls, la := some la }
  | .rcmt h a la => { ss := [(h, 4)], vo := [(a, 2)], guard := true, tx := false, path := some .ls, la := some la }
  | .rget d h la => { ss := [(h, 4)], vd := [(d, 3)], guard := true, tx := false, path := some .ls, la := some la }
  | .prim h a la => { ss := [(h, 4)], vo := [(a, 11)], guard := true, tx := false, path := some .ra, la := some la }
  | .tex d h a la => { ss := [(h, 4)], vo := [(a, 3)], vd := [(d, 4)], guard := true, tx := false, path := some .tx, la := some la }
  | .evIllegalWord _ => {}
  | .evMemoryAccessPerform _ => {}
  | .evLoadSectorReturn _ _ => {}
  | .evTranslationWalk _ _ => {}
  | .evReleaseWindow _ => {}
  | .evKerfFetch _ => {}
  | .evKerfSlot _ => {}
  | .evKerfPromotion _ => {}
  | .evKdrnDrain _ => {}
  | .evKzeroClear _ => {}
  | .evKstatReport _ => {}
  | .evSkidderCopy _ => {}
  | .evCanopyLaneStep _ => {}
  | .uNload => {}
  | .uBoxn => {}
  | .uTrin => {}
  | .uSphn => {}
  | .uOrdn => {}
  | .uPushn => {}
  | .uPopn => {}
  | .uJmp _ => {}
  | .uJz _ _ _ => {}
  | .uJnz _ _ _ => {}
  | .uLeaf _ _ => {}
  | .uNextp => {}
  | .uHitc _ => {}
  | .uAnyh => {}
  | .uXfrm => {}
  | .uXret => {}
  | .uSetf _ => {}
  | .uClrf _ => {}
  | .uCntr _ _ => {}
  | .uMiss => {}
  | .uDone => {}
  | .uFaultx _ => {}
  | .evRayTakeUp _ _ => {}
  | .evRayDelivery _ => {}
  | .evRasterSampleUpdate _ => {}
  | .evTextureReturn _ _ => {}
  | .evRalcServe _ => {}
  | .evRalcStallExpiry _ => {}
  | .evBatchTimeout _ => {}
  | .evRecordReturn _ => {}
  | .evRscopePressure _ => {}
  | .evScopeServe _ => {}
  | .evYieldExpiry _ => {}
  | .evWatchdog _ => {}
  | .evFullSaveEscalation _ => {}
  | .evTeamSave _ => {}
  | .evTeamRestore _ => {}
  | .evTeamPlacement _ => {}
  | .evLaunchPacket _ => {}
  | .evLaunchCompletion _ => {}
  | .evLqbell _ => {}
  | .evPreemptRequest _ => {}
  | .evPreemptCancel _ => {}
  | .evPrcntRead => {}
  | .evTlbInvalidateVa => {}
  | .evTlbInvalidateContext => {}
  | .evTlbInvalidateAll => {}
  | .evTlbInvalidateDone => {}
  | .evIcacheInvalidateVa => {}
  | .evIcacheInvalidateContext => {}
  | .evIcacheInvalidateAll => {}
  | .evIcacheInvalidateDone => {}
  | .evTkill _ => {}
  | .evFaultResponse _ => {}
  | .evFaultResponseFail _ => {}
  | .evFaultQueueEntry => {}
  | .evFaultQueueDisable => {}
  | .evCecntClear => {}
  | .evUecntClear => {}
  | .evFsetWrite _ _ => {}
  | .evFrequencyChange _ => {}
  | .evBudgetWindow => {}
  | .evScrub _ _ => {}
  | .evCoreStateUncorrectable _ _ _ => {}
  | .evProtectiveTrip => {}
  | .evDeviceReset => {}
  | .evDieReady _ _ => {}
  | .evStackReady _ _ => {}
  | .evPortReady _ _ => {}
  | .evFirmwareUpdate _ _ _ => {}
  | .evPtpSync _ => {}
  | .evPortDown _ => {}
  | .evHostCxlMemWrite _ _ => {}
  | .evRegisterWrite _ _ _ => {}
  | .evIllegalMicroword _ => {}
  | .evPeerMemoryAccess _ _ _ => {}

/-- Every field lies within its width (R78, R257). -/
def fits : Instr → Bool
  | .nop => true
  | .setm m => decide (m < 16777216)
  | .bra p n tgt rcv => decide (p < 8) && decide (n < 2) && decide (tgt < 1024) && decide (rcv < 1024)
  | .bru p n tgt rcv => decide (p < 8) && decide (n < 2) && decide (tgt < 1024) && decide (rcv < 1024)
  | .jmps a => decide (a < 128)
  | .call p n tgt => decide (p < 8) && decide (n < 2) && decide (tgt < 1024)
  | .calls a => decide (a < 128)
  | .ret => true
  | .sync rcv => decide (rcv < 1024)
  | .exit => true
  | .trap imm => decide (imm < 262144)
  | .tret => true
  | .ppt imm => decide (imm < 262144)
  | .yield => true
  | .rscope imm => decide (imm < 262144)
  | .rsend => true
  | .execr d => decide (d < 128)
  | .execw a => decide (a < 128)
  | .sprr d imm => decide (d < 128) && decide (imm < 1024)
  | .sprw a imm => decide (a < 128) && decide (imm < 1024)
  | .clkr d => decide (d < 64)
  | .ufirst d a => decide (d < 128) && decide (a < 128)
  | .uchk a => decide (a < 128)
  | .ulane d a imm => decide (d < 128) && decide (a < 128) && decide (imm < 1024)
  | .sadd d a b => decide (d < 128) && decide (a < 128) && decide (b < 128)
  | .ssub d a b => decide (d < 128) && decide (a < 128) && decide (b < 128)
  | .smul d a b => decide (d < 128) && decide (a < 128) && decide (b < 128)
  | .sand d a b => decide (d < 128) && decide (a < 128) && decide (b < 128)
  | .sor d a b => decide (d < 128) && decide (a < 128) && decide (b < 128)
  | .sxor d a b => decide (d < 128) && decide (a < 128) && decide (b < 128)
  | .sshl d a b => decide (d < 128) && decide (a < 128) && decide (b < 128)
  | .sshr d a b => decide (d < 128) && decide (a < 128) && decide (b < 128)
  | .ssar d a b => decide (d < 128) && decide (a < 128) && decide (b < 128)
  | .smov d a => decide (d < 128) && decide (a < 128)
  | .smulh d a b f => decide (d < 128) && decide (a < 128) && decide (b < 128) && decide (f < 8)
  | .smin d a b f => decide (d < 128) && decide (a < 128) && decide (b < 128) && decide (f < 8)
  | .smax d a b f => decide (d < 128) && decide (a < 128) && decide (b < 128) && decide (f < 8)
  | .scmp d a b f => decide (d < 128) && decide (a < 128) && decide (b < 128) && decide (f < 8)
  | .qop d a b f => decide (d < 128) && decide (a < 128) && decide (b < 128) && decide (f < 8)
  | .smovi d imm => decide (d < 64) && decide (imm < 262144)
  | .smovh d imm => decide (d < 64) && decide (imm < 262144)
  | .sld d a k la => decide (d < 128) && decide (a < 128) && decide (k < 64) && decide (la < 16)
  | .sst d a k la => decide (d < 128) && decide (a < 128) && decide (k < 64) && decide (la < 16)
  | .iadd d a b => decide (d < 128) && decide (a < 128) && decide (b < 128)
  | .isub d a b => decide (d < 128) && decide (a < 128) && decide (b < 128)
  | .imul d a b => decide (d < 128) && decide (a < 128) && decide (b < 128)
  | .imulh d a b => decide (d < 128) && decide (a < 128) && decide (b < 128)
  | .imad d a b => decide (d < 128) && decide (a < 128) && decide (b < 128)
  | .imin d a b => decide (d < 128) && decide (a < 128) && decide (b < 128)
  | .imax d a b => decide (d < 128) && decide (a < 128) && decide (b < 128)
  | .iabs d a => decide (d < 128) && decide (a < 128)
  | .vand d a b => decide (d < 128) && decide (a < 128) && decide (b < 128)
  | .vor d a b => decide (d < 128) && decide (a < 128) && decide (b < 128)
  | .vxor d a b => decide (d < 128) && decide (a < 128) && decide (b < 128)
  | .vandn d a b => decide (d < 128) && decide (a < 128) && decide (b < 128)
  | .shl d a b => decide (d < 128) && decide (a < 128) && decide (b < 128)
  | .shr d a b => decide (d < 128) && decide (a < 128) && decide (b < 128)
  | .sar d a b => decide (d < 128) && decide (a < 128) && decide (b < 128)
  | .popc d a => decide (d < 128) && decide (a < 128)
  | .clz d a => decide (d < 128) && decide (a < 128)
  | .brev d a => decide (d < 128) && decide (a < 128)
  | .bfe d a b => decide (d < 128) && decide (a < 128) && decide (b < 128)
  | .bfi d a b => decide (d < 128) && decide (a < 128) && decide (b < 128)
  | .icmp d a b f => decide (d < 128) && decide (a < 128) && decide (b < 128) && decide (f < 8)
  | .sel d a b f => decide (d < 128) && decide (a < 128) && decide (b < 128) && decide (f < 8)
  | .mov d a => decide (d < 128) && decide (a < 128)
  | .movi d imm => decide (d < 128) && decide (imm < 1024)
  | .lea d a b f => decide (d < 128) && decide (a < 128) && decide (b < 128) && decide (f < 8)
  | .plop d a b f => decide (d < 128) && decide (a < 128) && decide (b < 128) && decide (f < 8)
  | .iaddImm d a imm => decide (d < 128) && decide (a < 128) && decide (imm < 1024)
  | .andImm d a imm => decide (d < 128) && decide (a < 128) && decide (imm < 1024)
  | .orImm d a imm => decide (d < 128) && decide (a < 128) && decide (imm < 1024)
  | .shlImm d a imm => decide (d < 128) && decide (a < 128) && decide (imm < 1024)
  | .shrImm d a imm => decide (d < 128) && decide (a < 128) && decide (imm < 1024)
  | .sarImm d a imm => decide (d < 128) && decide (a < 128) && decide (imm < 1024)
  | .fadd d a b => decide (d < 128) && decide (a < 128) && decide (b < 128)
  | .fsub d a b => decide (d < 128) && decide (a < 128) && decide (b < 128)
  | .fmul d a b => decide (d < 128) && decide (a < 128) && decide (b < 128)
  | .ffma d a b => decide (d < 128) && decide (a < 128) && decide (b < 128)
  | .fmin d a b => decide (d < 128) && decide (a < 128) && decide (b < 128)
  | .fmax d a b => decide (d < 128) && decide (a < 128) && decide (b < 128)
  | .fabs d a => decide (d < 128) && decide (a < 128)
  | .fneg d a => decide (d < 128) && decide (a < 128)
  | .fcmp d a b f => decide (d < 128) && decide (a < 128) && decide (b < 128) && decide (f < 8)
  | .fcvt d a b => decide (d < 128) && decide (a < 128) && decide (b < 128)
  | .frint d a => decide (d < 128) && decide (a < 128)
  | .fclass d a => decide (d < 128) && decide (a < 128)
  | .fsat d a => decide (d < 128) && decide (a < 128)
  | .rcp d a => decide (d < 128) && decide (a < 128)
  | .rsq d a => decide (d < 128) && decide (a < 128)
  | .sqrt d a => decide (d < 128) && decide (a < 128)
  | .ex2 d a => decide (d < 128) && decide (a < 128)
  | .lg2 d a => decide (d < 128) && decide (a < 128)
  | .sin d a => decide (d < 128) && decide (a < 128)
  | .cos d a => decide (d < 128) && decide (a < 128)
  | .tanh d a => decide (d < 128) && decide (a < 128)
  | .sigm d a => decide (d < 128) && decide (a < 128)
  | .tseed d a f => decide (d < 128) && decide (a < 128) && decide (f < 8)
  | .tget d a f => decide (d < 128) && decide (a < 128) && decide (f < 8)
  | .tset d a f => decide (d < 128) && decide (a < 128) && decide (f < 8)
  | .tclr d => decide (d < 128)
  | .tlin d a b => decide (d < 128) && decide (a < 128) && decide (b < 128)
  | .tfoot d a b => decide (d < 128) && decide (a < 128) && decide (b < 128)
  | .tflag d a => decide (d < 128) && decide (a < 128)
  | .shfl d a b f => decide (d < 128) && decide (a < 128) && decide (b < 128) && decide (f < 8)
  | .ballot d a => decide (d < 128) && decide (a < 128)
  | .eqmask d a => decide (d < 128) && decide (a < 128)
  | .redu d a f => decide (d < 128) && decide (a < 128) && decide (f < 8)
  | .minidx d a f => decide (d < 128) && decide (a < 128) && decide (f < 8)
  | .scan d a b f => decide (d < 128) && decide (a < 128) && decide (b < 128) && decide (f < 8)
  | .welf d a b => decide (d < 128) && decide (a < 128) && decide (b < 128)
  | .smxm d a b => decide (d < 128) && decide (a < 128) && decide (b < 128)
  | .smxn d a b f => decide (d < 128) && decide (a < 128) && decide (b < 128) && decide (f < 8)
  | .ldU8 d a k la => decide (d < 128) && decide (a < 128) && decide (k < 64) && decide (la < 16)
  | .ldS8 d a k la => decide (d < 128) && decide (a < 128) && decide (k < 64) && decide (la < 16)
  | .ldU16 d a k la => decide (d < 128) && decide (a < 128) && decide (k < 64) && decide (la < 16)
  | .ldS16 d a k la => decide (d < 128) && decide (a < 128) && decide (k < 64) && decide (la < 16)
  | .ldB32 d a k la => decide (d < 128) && decide (a < 128) && decide (k < 64) && decide (la < 16)
  | .ldB64 d a k la => decide (d < 128) && decide (a < 128) && decide (k < 64) && decide (la < 16)
  | .ldB128 d a k la => decide (d < 128) && decide (a < 128) && decide (k < 64) && decide (la < 16)
  | .stB8 d a k la => decide (d < 128) && decide (a < 128) && decide (k < 64) && decide (la < 16)
  | .stB16 d a k la => decide (d < 128) && decide (a < 128) && decide (k < 64) && decide (la < 16)
  | .stB32 d a k la => decide (d < 128) && decide (a < 128) && decide (k < 64) && decide (la < 16)
  | .stB64 d a k la => decide (d < 128) && decide (a < 128) && decide (k < 64) && decide (la < 16)
  | .stB128 d a k la => decide (d < 128) && decide (a < 128) && decide (k < 64) && decide (la < 16)
  | .ldt d a k la => decide (d < 128) && decide (a < 128) && decide (k < 64) && decide (la < 16)
  | .stt d a k la => decide (d < 128) && decide (a < 128) && decide (k < 64) && decide (la < 16)
  | .prf a k la => decide (a < 128) && decide (k < 64) && decide (la < 16)
  | .atom d a k la => decide (d < 128) && decide (a < 128) && decide (k < 64) && decide (la < 16)
  | .red d a k la => decide (d < 128) && decide (a < 128) && decide (k < 64) && decide (la < 16)
  | .fence rel acq scope => decide (rel < 2) && decide (acq < 2) && decide (scope < 8)
  | .xfence m => decide (m < 128)
  | .waitp a f => decide (a < 128) && decide (f < 8)
  | .bar a b => decide (a < 128) && decide (b < 128)
  | .bara d a b => decide (d < 128) && decide (a < 128) && decide (b < 128)
  | .barw a b => decide (a < 128) && decide (b < 128)
  | .cbar => true
  | .cbwait a b => decide (a < 128) && decide (b < 128)
  | .ldcb a b => decide (a < 128) && decide (b < 128)
  | .marm a k la => decide (a < 128) && decide (k < 64) && decide (la < 16)
  | .mwait a => decide (a < 128)
  | .txb d => decide (d < 64)
  | .txc => true
  | .txa tgt => decide (tgt < 1024)
  | .skid d h la => decide (d < 128) && decide (h < 64) && decide (la < 16)
  | .skidg d h a la => decide (d < 128) && decide (h < 64) && decide (a < 128) && decide (la < 16)
  | .kmma d h a la => decide (d < 128) && decide (h < 64) && decide (a < 128) && decide (la < 16)
  | .kmmaPair d h a la => decide (d < 128) && decide (h < 64) && decide (a < 128) && decide (la < 16)
  | .kdrn d h a la => decide (d < 128) && decide (h < 64) && decide (a < 128) && decide (la < 16)
  | .kzero d la => decide (d < 128) && decide (la < 16)
  | .kstat d a la => decide (d < 128) && decide (a < 128) && decide (la < 16)
  | .cruz d h a la => decide (d < 128) && decide (h < 64) && decide (a < 128) && decide (la < 16)
  | .crget d a la => decide (d < 128) && decide (a < 128) && decide (la < 16)
  | .crld d h la => decide (d < 128) && decide (h < 64) && decide (la < 16)
  | .cnop d a la => decide (d < 128) && decide (a < 128) && decide (la < 16)
  | .cnad d a la => decide (d < 128) && decide (a < 128) && decide (la < 16)
  | .cnrd d a la => decide (d < 128) && decide (a < 128) && decide (la < 16)
  | .cncl d a la => decide (d < 128) && decide (a < 128) && decide (la < 16)
  | .cnaj d h a la => decide (d < 128) && decide (h < 64) && decide (a < 128) && decide (la < 16)
  | .sortk d h a la => decide (d < 128) && decide (h < 64) && decide (a < 128) && decide (la < 16)
  | .ralc d h a la => decide (d < 128) && decide (h < 64) && decide (a < 128) && decide (la < 16)
  | .rcmt h a la => decide (h < 64) && decide (a < 128) && decide (la < 16)
  | .rget d h la => decide (d < 128) && decide (h < 64) && decide (la < 16)
  | .prim h a la => decide (h < 64) && decide (a < 128) && decide (la < 16)
  | .tex d h a la => decide (d < 128) && decide (h < 64) && decide (a < 128) && decide (la < 16)
  | .evIllegalWord _ => true
  | .evMemoryAccessPerform _ => true
  | .evLoadSectorReturn _ _ => true
  | .evTranslationWalk _ _ => true
  | .evReleaseWindow _ => true
  | .evKerfFetch _ => true
  | .evKerfSlot _ => true
  | .evKerfPromotion _ => true
  | .evKdrnDrain _ => true
  | .evKzeroClear _ => true
  | .evKstatReport _ => true
  | .evSkidderCopy _ => true
  | .evCanopyLaneStep _ => true
  | .uNload => true
  | .uBoxn => true
  | .uTrin => true
  | .uSphn => true
  | .uOrdn => true
  | .uPushn => true
  | .uPopn => true
  | .uJmp tgt => decide (tgt < 2048)
  | .uJz c tgt imm => decide (c < 8) && decide (tgt < 2048) && decide (imm < 8192)
  | .uJnz c tgt imm => decide (c < 8) && decide (tgt < 2048) && decide (imm < 8192)
  | .uLeaf tgt imm => decide (tgt < 2048) && decide (imm < 8192)
  | .uNextp => true
  | .uHitc c => decide (c < 8)
  | .uAnyh => true
  | .uXfrm => true
  | .uXret => true
  | .uSetf imm => decide (imm < 8192)
  | .uClrf imm => decide (imm < 8192)
  | .uCntr c imm => decide (c < 8) && decide (imm < 8192)
  | .uMiss => true
  | .uDone => true
  | .uFaultx imm => decide (imm < 8192)
  | .evRayTakeUp _ _ => true
  | .evRayDelivery _ => true
  | .evRasterSampleUpdate _ => true
  | .evTextureReturn _ _ => true
  | .evRalcServe _ => true
  | .evRalcStallExpiry _ => true
  | .evBatchTimeout _ => true
  | .evRecordReturn _ => true
  | .evRscopePressure _ => true
  | .evScopeServe _ => true
  | .evYieldExpiry _ => true
  | .evWatchdog _ => true
  | .evFullSaveEscalation _ => true
  | .evTeamSave _ => true
  | .evTeamRestore _ => true
  | .evTeamPlacement _ => true
  | .evLaunchPacket _ => true
  | .evLaunchCompletion _ => true
  | .evLqbell _ => true
  | .evPreemptRequest _ => true
  | .evPreemptCancel _ => true
  | .evPrcntRead => true
  | .evTlbInvalidateVa => true
  | .evTlbInvalidateContext => true
  | .evTlbInvalidateAll => true
  | .evTlbInvalidateDone => true
  | .evIcacheInvalidateVa => true
  | .evIcacheInvalidateContext => true
  | .evIcacheInvalidateAll => true
  | .evIcacheInvalidateDone => true
  | .evTkill _ => true
  | .evFaultResponse _ => true
  | .evFaultResponseFail _ => true
  | .evFaultQueueEntry => true
  | .evFaultQueueDisable => true
  | .evCecntClear => true
  | .evUecntClear => true
  | .evFsetWrite _ _ => true
  | .evFrequencyChange _ => true
  | .evBudgetWindow => true
  | .evScrub _ _ => true
  | .evCoreStateUncorrectable _ _ _ => true
  | .evProtectiveTrip => true
  | .evDeviceReset => true
  | .evDieReady _ _ => true
  | .evStackReady _ _ => true
  | .evPortReady _ _ => true
  | .evFirmwareUpdate _ _ _ => true
  | .evPtpSync _ => true
  | .evPortDown _ => true
  | .evHostCxlMemWrite _ _ => true
  | .evRegisterWrite _ _ _ => true
  | .evIllegalMicroword _ => true
  | .evPeerMemoryAccess _ _ _ => true

/-- The limits an entry sets on the numbers in its fields (check 2 of R91: R22, R81, R82, R84, R109, R127, R131, R132,
R137, R138, R152, R161, R171, R173, R176, R177, R198, R201, R203, R205, R226). -/
def allowed : Instr → Bool
  | .nop => true
  | .setm m => decide (m / 16384 = 0)
  | .bra _ _ _ _ => true
  | .bru _ _ _ _ => true
  | .jmps _ => true
  | .call _ _ _ => true
  | .calls _ => true
  | .ret => true
  | .sync rcv => decide (0 < rcv)
  | .exit => true
  | .trap _ => true
  | .tret => true
  | .ppt _ => true
  | .yield => true
  | .rscope imm => decide (1 ≤ imm ∧ imm ≤ 112)
  | .rsend => true
  | .execr _ => true
  | .execw _ => true
  | .sprr _ imm => decide (imm ≤ 12)
  | .sprw _ imm => imm == 9 || imm == 12
  | .clkr _ => true
  | .ufirst _ _ => true
  | .uchk _ => true
  | .ulane _ _ imm => decide (imm < 32)
  | .sadd _ _ _ => true
  | .ssub _ _ _ => true
  | .smul _ _ _ => true
  | .sand _ _ _ => true
  | .sor _ _ _ => true
  | .sxor _ _ _ => true
  | .sshl _ _ _ => true
  | .sshr _ _ _ => true
  | .ssar _ _ _ => true
  | .smov _ _ => true
  | .smulh _ _ _ f => decide (f < 2)
  | .smin _ _ _ f => decide (f < 2)
  | .smax _ _ _ f => decide (f < 2)
  | .scmp _ _ _ _ => true
  | .qop _ _ b f => (f != 4 && f != 5) || b == 0
  | .smovi _ _ => true
  | .smovh _ _ => true
  | .sld _ _ _ _ => true
  | .sst _ _ _ _ => true
  | .iadd _ _ _ => true
  | .isub _ _ _ => true
  | .imul _ _ _ => true
  | .imulh _ _ _ => true
  | .imad _ _ _ => true
  | .imin _ _ _ => true
  | .imax _ _ _ => true
  | .iabs _ _ => true
  | .vand _ _ _ => true
  | .vor _ _ _ => true
  | .vxor _ _ _ => true
  | .vandn _ _ _ => true
  | .shl _ _ _ => true
  | .shr _ _ _ => true
  | .sar _ _ _ => true
  | .popc _ _ => true
  | .clz _ _ => true
  | .brev _ _ => true
  | .bfe _ _ _ => true
  | .bfi _ _ _ => true
  | .icmp _ _ _ f => decide (f < 6)
  | .sel _ _ _ _ => true
  | .mov _ _ => true
  | .movi _ _ => true
  | .lea _ _ _ _ => true
  | .plop _ _ b f => (f != 4 && f != 5) || b == 0
  | .iaddImm _ _ _ => true
  | .andImm _ _ _ => true
  | .orImm _ _ _ => true
  | .shlImm _ _ _ => true
  | .shrImm _ _ _ => true
  | .sarImm _ _ _ => true
  | .fadd _ _ _ => true
  | .fsub _ _ _ => true
  | .fmul _ _ _ => true
  | .ffma _ _ _ => true
  | .fmin _ _ _ => true
  | .fmax _ _ _ => true
  | .fabs _ _ => true
  | .fneg _ _ => true
  | .fcmp _ _ _ _ => true
  | .fcvt _ _ b => decide (b % 16 < 14)
  | .frint _ _ => true
  | .fclass _ _ => true
  | .fsat _ _ => true
  | .rcp _ _ => true
  | .rsq _ _ => true
  | .sqrt _ _ => true
  | .ex2 _ _ => true
  | .lg2 _ _ => true
  | .sin _ _ => true
  | .cos _ _ => true
  | .tanh _ _ => true
  | .sigm _ _ => true
  | .tseed _ _ _ => true
  | .tget _ _ _ => true
  | .tset _ _ _ => true
  | .tclr _ => true
  | .tlin _ _ _ => true
  | .tfoot _ _ _ => true
  | .tflag _ a => decide (1 ≤ a ∧ a ≤ 7)
  | .shfl _ _ _ f => decide (f < 4)
  | .ballot _ _ => true
  | .eqmask _ _ => true
  | .redu _ _ f => decide (f < 6)
  | .minidx _ _ f => decide (f < 2)
  | .scan _ _ _ _ => true
  | .welf _ _ _ => true
  | .smxm _ _ _ => true
  | .smxn _ _ _ _ => true
  | .ldU8 _ _ _ _ => true
  | .ldS8 _ _ _ _ => true
  | .ldU16 _ _ _ _ => true
  | .ldS16 _ _ _ _ => true
  | .ldB32 _ _ _ _ => true
  | .ldB64 _ _ _ _ => true
  | .ldB128 _ _ _ _ => true
  | .stB8 _ _ _ _ => true
  | .stB16 _ _ _ _ => true
  | .stB32 _ _ _ _ => true
  | .stB64 _ _ _ _ => true
  | .stB128 _ _ _ _ => true
  | .ldt _ _ _ _ => true
  | .stt _ _ _ _ => true
  | .prf _ _ _ => true
  | .atom _ _ _ _ => true
  | .red _ _ _ _ => true
  | .fence rel acq scope => decide (scope < 6) && (acq != 0 || rel != 0)
  | .xfence m => m != 0
  | .waitp _ f => decide (f < 7)
  | .bar a _ => decide (a < 16)
  | .bara _ a _ => decide (a < 16)
  | .barw a _ => decide (a < 16)
  | .cbar => true
  | .cbwait _ _ => true
  | .ldcb _ _ => true
  | .marm _ _ _ => true
  | .mwait _ => true
  | .txb _ => true
  | .txc => true
  | .txa _ => true
  | .skid _ _ _ => true
  | .skidg _ _ _ _ => true
  | .kmma _ _ _ _ => true
  | .kmmaPair _ _ _ _ => true
  | .kdrn _ _ _ _ => true
  | .kzero d _ => decide (d < 16)
  | .kstat _ a _ => decide (a < 16)
  | .cruz _ _ _ _ => true
  | .crget _ _ _ => true
  | .crld _ _ _ => true
  | .cnop _ _ _ => true
  | .cnad _ _ _ => true
  | .cnrd _ _ _ => true
  | .cncl _ _ _ => true
  | .cnaj _ _ _ _ => true
  | .sortk _ _ _ _ => true
  | .ralc _ _ _ _ => true
  | .rcmt _ _ _ => true
  | .rget _ _ _ => true
  | .prim _ _ _ => true
  | .tex _ _ _ _ => true
  | .evIllegalWord _ => true
  | .evMemoryAccessPerform _ => true
  | .evLoadSectorReturn _ _ => true
  | .evTranslationWalk _ _ => true
  | .evReleaseWindow _ => true
  | .evKerfFetch _ => true
  | .evKerfSlot _ => true
  | .evKerfPromotion _ => true
  | .evKdrnDrain _ => true
  | .evKzeroClear _ => true
  | .evKstatReport _ => true
  | .evSkidderCopy _ => true
  | .evCanopyLaneStep _ => true
  | .uNload => true
  | .uBoxn => true
  | .uTrin => true
  | .uSphn => true
  | .uOrdn => true
  | .uPushn => true
  | .uPopn => true
  | .uJmp _ => true
  | .uJz _ _ _ => true
  | .uJnz _ _ _ => true
  | .uLeaf _ _ => true
  | .uNextp => true
  | .uHitc _ => true
  | .uAnyh => true
  | .uXfrm => true
  | .uXret => true
  | .uSetf _ => true
  | .uClrf _ => true
  | .uCntr _ _ => true
  | .uMiss => true
  | .uDone => true
  | .uFaultx _ => true
  | .evRayTakeUp _ _ => true
  | .evRayDelivery _ => true
  | .evRasterSampleUpdate _ => true
  | .evTextureReturn _ _ => true
  | .evRalcServe _ => true
  | .evRalcStallExpiry _ => true
  | .evBatchTimeout _ => true
  | .evRecordReturn _ => true
  | .evRscopePressure _ => true
  | .evScopeServe _ => true
  | .evYieldExpiry _ => true
  | .evWatchdog _ => true
  | .evFullSaveEscalation _ => true
  | .evTeamSave _ => true
  | .evTeamRestore _ => true
  | .evTeamPlacement _ => true
  | .evLaunchPacket _ => true
  | .evLaunchCompletion _ => true
  | .evLqbell _ => true
  | .evPreemptRequest _ => true
  | .evPreemptCancel _ => true
  | .evPrcntRead => true
  | .evTlbInvalidateVa => true
  | .evTlbInvalidateContext => true
  | .evTlbInvalidateAll => true
  | .evTlbInvalidateDone => true
  | .evIcacheInvalidateVa => true
  | .evIcacheInvalidateContext => true
  | .evIcacheInvalidateAll => true
  | .evIcacheInvalidateDone => true
  | .evTkill _ => true
  | .evFaultResponse _ => true
  | .evFaultResponseFail _ => true
  | .evFaultQueueEntry => true
  | .evFaultQueueDisable => true
  | .evCecntClear => true
  | .evUecntClear => true
  | .evFsetWrite _ _ => true
  | .evFrequencyChange _ => true
  | .evBudgetWindow => true
  | .evScrub _ _ => true
  | .evCoreStateUncorrectable _ _ _ => true
  | .evProtectiveTrip => true
  | .evDeviceReset => true
  | .evDieReady _ _ => true
  | .evStackReady _ _ => true
  | .evPortReady _ _ => true
  | .evFirmwareUpdate _ _ _ => true
  | .evPtpSync _ => true
  | .evPortDown _ => true
  | .evHostCxlMemWrite _ _ => true
  | .evRegisterWrite _ _ _ => true
  | .evIllegalMicroword _ => true
  | .evPeerMemoryAccess _ _ _ => true

/-- The micro-operation's field values are in range (R258, R259). -/
def microAllowed : Instr → Bool
  | .nop => true
  | .setm _ => true
  | .bra _ _ _ _ => true
  | .bru _ _ _ _ => true
  | .jmps _ => true
  | .call _ _ _ => true
  | .calls _ => true
  | .ret => true
  | .sync _ => true
  | .exit => true
  | .trap _ => true
  | .tret => true
  | .ppt _ => true
  | .yield => true
  | .rscope _ => true
  | .rsend => true
  | .execr _ => true
  | .execw _ => true
  | .sprr _ _ => true
  | .sprw _ _ => true
  | .clkr _ => true
  | .ufirst _ _ => true
  | .uchk _ => true
  | .ulane _ _ _ => true
  | .sadd _ _ _ => true
  | .ssub _ _ _ => true
  | .smul _ _ _ => true
  | .sand _ _ _ => true
  | .sor _ _ _ => true
  | .sxor _ _ _ => true
  | .sshl _ _ _ => true
  | .sshr _ _ _ => true
  | .ssar _ _ _ => true
  | .smov _ _ => true
  | .smulh _ _ _ _ => true
  | .smin _ _ _ _ => true
  | .smax _ _ _ _ => true
  | .scmp _ _ _ _ => true
  | .qop _ _ _ _ => true
  | .smovi _ _ => true
  | .smovh _ _ => true
  | .sld _ _ _ _ => true
  | .sst _ _ _ _ => true
  | .iadd _ _ _ => true
  | .isub _ _ _ => true
  | .imul _ _ _ => true
  | .imulh _ _ _ => true
  | .imad _ _ _ => true
  | .imin _ _ _ => true
  | .imax _ _ _ => true
  | .iabs _ _ => true
  | .vand _ _ _ => true
  | .vor _ _ _ => true
  | .vxor _ _ _ => true
  | .vandn _ _ _ => true
  | .shl _ _ _ => true
  | .shr _ _ _ => true
  | .sar _ _ _ => true
  | .popc _ _ => true
  | .clz _ _ => true
  | .brev _ _ => true
  | .bfe _ _ _ => true
  | .bfi _ _ _ => true
  | .icmp _ _ _ _ => true
  | .sel _ _ _ _ => true
  | .mov _ _ => true
  | .movi _ _ => true
  | .lea _ _ _ _ => true
  | .plop _ _ _ _ => true
  | .iaddImm _ _ _ => true
  | .andImm _ _ _ => true
  | .orImm _ _ _ => true
  | .shlImm _ _ _ => true
  | .shrImm _ _ _ => true
  | .sarImm _ _ _ => true
  | .fadd _ _ _ => true
  | .fsub _ _ _ => true
  | .fmul _ _ _ => true
  | .ffma _ _ _ => true
  | .fmin _ _ _ => true
  | .fmax _ _ _ => true
  | .fabs _ _ => true
  | .fneg _ _ => true
  | .fcmp _ _ _ _ => true
  | .fcvt _ _ _ => true
  | .frint _ _ => true
  | .fclass _ _ => true
  | .fsat _ _ => true
  | .rcp _ _ => true
  | .rsq _ _ => true
  | .sqrt _ _ => true
  | .ex2 _ _ => true
  | .lg2 _ _ => true
  | .sin _ _ => true
  | .cos _ _ => true
  | .tanh _ _ => true
  | .sigm _ _ => true
  | .tseed _ _ _ => true
  | .tget _ _ _ => true
  | .tset _ _ _ => true
  | .tclr _ => true
  | .tlin _ _ _ => true
  | .tfoot _ _ _ => true
  | .tflag _ _ => true
  | .shfl _ _ _ _ => true
  | .ballot _ _ => true
  | .eqmask _ _ => true
  | .redu _ _ _ => true
  | .minidx _ _ _ => true
  | .scan _ _ _ _ => true
  | .welf _ _ _ => true
  | .smxm _ _ _ => true
  | .smxn _ _ _ _ => true
  | .ldU8 _ _ _ _ => true
  | .ldS8 _ _ _ _ => true
  | .ldU16 _ _ _ _ => true
  | .ldS16 _ _ _ _ => true
  | .ldB32 _ _ _ _ => true
  | .ldB64 _ _ _ _ => true
  | .ldB128 _ _ _ _ => true
  | .stB8 _ _ _ _ => true
  | .stB16 _ _ _ _ => true
  | .stB32 _ _ _ _ => true
  | .stB64 _ _ _ _ => true
  | .stB128 _ _ _ _ => true
  | .ldt _ _ _ _ => true
  | .stt _ _ _ _ => true
  | .prf _ _ _ => true
  | .atom _ _ _ _ => true
  | .red _ _ _ _ => true
  | .fence _ _ _ => true
  | .xfence _ => true
  | .waitp _ _ => true
  | .bar _ _ => true
  | .bara _ _ _ => true
  | .barw _ _ => true
  | .cbar => true
  | .cbwait _ _ => true
  | .ldcb _ _ => true
  | .marm _ _ _ => true
  | .mwait _ => true
  | .txb _ => true
  | .txc => true
  | .txa _ => true
  | .skid _ _ _ => true
  | .skidg _ _ _ _ => true
  | .kmma _ _ _ _ => true
  | .kmmaPair _ _ _ _ => true
  | .kdrn _ _ _ _ => true
  | .kzero _ _ => true
  | .kstat _ _ _ => true
  | .cruz _ _ _ _ => true
  | .crget _ _ _ => true
  | .crld _ _ _ => true
  | .cnop _ _ _ => true
  | .cnad _ _ _ => true
  | .cnrd _ _ _ => true
  | .cncl _ _ _ => true
  | .cnaj _ _ _ _ => true
  | .sortk _ _ _ _ => true
  | .ralc _ _ _ _ => true
  | .rcmt _ _ _ => true
  | .rget _ _ _ => true
  | .prim _ _ _ => true
  | .tex _ _ _ _ => true
  | .evIllegalWord _ => true
  | .evMemoryAccessPerform _ => true
  | .evLoadSectorReturn _ _ => true
  | .evTranslationWalk _ _ => true
  | .evReleaseWindow _ => true
  | .evKerfFetch _ => true
  | .evKerfSlot _ => true
  | .evKerfPromotion _ => true
  | .evKdrnDrain _ => true
  | .evKzeroClear _ => true
  | .evKstatReport _ => true
  | .evSkidderCopy _ => true
  | .evCanopyLaneStep _ => true
  | .uNload => true
  | .uBoxn => true
  | .uTrin => true
  | .uSphn => true
  | .uOrdn => true
  | .uPushn => true
  | .uPopn => true
  | .uJmp _ => true
  | .uJz c _ imm => c == 5 && decide (imm < 8) || c != 5 && imm == 0
  | .uJnz c _ imm => c == 5 && decide (imm < 8) || c != 5 && imm == 0
  | .uLeaf _ imm => decide (imm < 2048)
  | .uNextp => true
  | .uHitc c => decide (c < 3)
  | .uAnyh => true
  | .uXfrm => true
  | .uXret => true
  | .uSetf imm => decide (imm < 8)
  | .uClrf imm => decide (imm < 8)
  | .uCntr c imm => c == 0 && decide (imm < 256) || (c == 1 || c == 2) && imm == 0
  | .uMiss => true
  | .uDone => true
  | .uFaultx imm => decide (imm < 4096)
  | .evRayTakeUp _ _ => true
  | .evRayDelivery _ => true
  | .evRasterSampleUpdate _ => true
  | .evTextureReturn _ _ => true
  | .evRalcServe _ => true
  | .evRalcStallExpiry _ => true
  | .evBatchTimeout _ => true
  | .evRecordReturn _ => true
  | .evRscopePressure _ => true
  | .evScopeServe _ => true
  | .evYieldExpiry _ => true
  | .evWatchdog _ => true
  | .evFullSaveEscalation _ => true
  | .evTeamSave _ => true
  | .evTeamRestore _ => true
  | .evTeamPlacement _ => true
  | .evLaunchPacket _ => true
  | .evLaunchCompletion _ => true
  | .evLqbell _ => true
  | .evPreemptRequest _ => true
  | .evPreemptCancel _ => true
  | .evPrcntRead => true
  | .evTlbInvalidateVa => true
  | .evTlbInvalidateContext => true
  | .evTlbInvalidateAll => true
  | .evTlbInvalidateDone => true
  | .evIcacheInvalidateVa => true
  | .evIcacheInvalidateContext => true
  | .evIcacheInvalidateAll => true
  | .evIcacheInvalidateDone => true
  | .evTkill _ => true
  | .evFaultResponse _ => true
  | .evFaultResponseFail _ => true
  | .evFaultQueueEntry => true
  | .evFaultQueueDisable => true
  | .evCecntClear => true
  | .evUecntClear => true
  | .evFsetWrite _ _ => true
  | .evFrequencyChange _ => true
  | .evBudgetWindow => true
  | .evScrub _ _ => true
  | .evCoreStateUncorrectable _ _ _ => true
  | .evProtectiveTrip => true
  | .evDeviceReset => true
  | .evDieReady _ _ => true
  | .evStackReady _ _ => true
  | .evPortReady _ _ => true
  | .evFirmwareUpdate _ _ _ => true
  | .evPtpSync _ => true
  | .evPortDown _ => true
  | .evHostCxlMemWrite _ _ => true
  | .evRegisterWrite _ _ _ => true
  | .evIllegalMicroword _ => true
  | .evPeerMemoryAccess _ _ _ => true

/-- Pair, quad and register-group alignment (check 5 of R91: R15, R185, R193, R220). -/
def aligned : Instr → Bool
  | .nop => true
  | .setm _ => true
  | .bra _ _ _ _ => true
  | .bru _ _ _ _ => true
  | .jmps a => a % 2 == 0
  | .call _ _ _ => true
  | .calls a => a % 2 == 0
  | .ret => true
  | .sync _ => true
  | .exit => true
  | .trap _ => true
  | .tret => true
  | .ppt _ => true
  | .yield => true
  | .rscope _ => true
  | .rsend => true
  | .execr _ => true
  | .execw _ => true
  | .sprr _ _ => true
  | .sprw _ _ => true
  | .clkr d => d % 2 == 0
  | .ufirst _ _ => true
  | .uchk _ => true
  | .ulane _ _ _ => true
  | .sadd _ _ _ => true
  | .ssub _ _ _ => true
  | .smul _ _ _ => true
  | .sand _ _ _ => true
  | .sor _ _ _ => true
  | .sxor _ _ _ => true
  | .sshl _ _ _ => true
  | .sshr _ _ _ => true
  | .ssar _ _ _ => true
  | .smov _ _ => true
  | .smulh _ _ _ _ => true
  | .smin _ _ _ _ => true
  | .smax _ _ _ _ => true
  | .scmp _ _ _ _ => true
  | .qop _ _ _ _ => true
  | .smovi _ _ => true
  | .smovh _ _ => true
  | .sld _ _ k _ => k % 2 == 0
  | .sst _ _ k _ => k % 2 == 0
  | .iadd _ _ _ => true
  | .isub _ _ _ => true
  | .imul _ _ _ => true
  | .imulh _ _ _ => true
  | .imad _ _ _ => true
  | .imin _ _ _ => true
  | .imax _ _ _ => true
  | .iabs _ _ => true
  | .vand _ _ _ => true
  | .vor _ _ _ => true
  | .vxor _ _ _ => true
  | .vandn _ _ _ => true
  | .shl _ _ _ => true
  | .shr _ _ _ => true
  | .sar _ _ _ => true
  | .popc _ _ => true
  | .clz _ _ => true
  | .brev _ _ => true
  | .bfe _ _ _ => true
  | .bfi _ _ _ => true
  | .icmp _ _ _ _ => true
  | .sel _ _ _ _ => true
  | .mov _ _ => true
  | .movi _ _ => true
  | .lea _ _ _ _ => true
  | .plop _ _ _ _ => true
  | .iaddImm _ _ _ => true
  | .andImm _ _ _ => true
  | .orImm _ _ _ => true
  | .shlImm _ _ _ => true
  | .shrImm _ _ _ => true
  | .sarImm _ _ _ => true
  | .fadd _ _ _ => true
  | .fsub _ _ _ => true
  | .fmul _ _ _ => true
  | .ffma _ _ _ => true
  | .fmin _ _ _ => true
  | .fmax _ _ _ => true
  | .fabs _ _ => true
  | .fneg _ _ => true
  | .fcmp _ _ _ _ => true
  | .fcvt _ _ _ => true
  | .frint _ _ => true
  | .fclass _ _ => true
  | .fsat _ _ => true
  | .rcp _ _ => true
  | .rsq _ _ => true
  | .sqrt _ _ => true
  | .ex2 _ _ => true
  | .lg2 _ _ => true
  | .sin _ _ => true
  | .cos _ _ => true
  | .tanh _ _ => true
  | .sigm _ _ => true
  | .tseed _ _ _ => true
  | .tget _ _ _ => true
  | .tset _ _ _ => true
  | .tclr _ => true
  | .tlin _ _ _ => true
  | .tfoot _ _ _ => true
  | .tflag _ _ => true
  | .shfl _ _ _ _ => true
  | .ballot _ _ => true
  | .eqmask _ _ => true
  | .redu _ _ _ => true
  | .minidx _ _ _ => true
  | .scan _ _ _ _ => true
  | .welf _ _ _ => true
  | .smxm _ _ _ => true
  | .smxn _ _ _ _ => true
  | .ldU8 _ _ k _ => k % 2 == 0
  | .ldS8 _ _ k _ => k % 2 == 0
  | .ldU16 _ _ k _ => k % 2 == 0
  | .ldS16 _ _ k _ => k % 2 == 0
  | .ldB32 _ _ k _ => k % 2 == 0
  | .ldB64 d _ k _ => d % 2 == 0 && k % 2 == 0
  | .ldB128 d _ k _ => d % 4 == 0 && k % 2 == 0
  | .stB8 _ _ k _ => k % 2 == 0
  | .stB16 _ _ k _ => k % 2 == 0
  | .stB32 _ _ k _ => k % 2 == 0
  | .stB64 d _ k _ => d % 2 == 0 && k % 2 == 0
  | .stB128 d _ k _ => d % 4 == 0 && k % 2 == 0
  | .ldt _ _ k _ => k % 2 == 0
  | .stt _ _ k _ => k % 2 == 0
  | .prf _ k _ => k % 2 == 0
  | .atom _ _ k _ => k % 2 == 0
  | .red _ _ k _ => k % 2 == 0
  | .fence _ _ _ => true
  | .xfence _ => true
  | .waitp _ _ => true
  | .bar _ _ => true
  | .bara _ _ _ => true
  | .barw _ _ => true
  | .cbar => true
  | .cbwait _ _ => true
  | .ldcb _ _ => true
  | .marm _ k _ => k % 2 == 0
  | .mwait _ => true
  | .txb _ => true
  | .txc => true
  | .txa _ => true
  | .skid d h _ => d % 2 == 0 && h % 4 == 0
  | .skidg d h a _ => d % 2 == 0 && h % 4 == 0 && a % 2 == 0
  | .kmma d h _ _ => d % 2 == 0 && h % 4 == 0
  | .kmmaPair d h _ _ => d % 2 == 0 && h % 4 == 0
  | .kdrn d h _ _ => d % 2 == 0 && h % 4 == 0
  | .kzero _ _ => true
  | .kstat _ _ _ => true
  | .cruz _ h a _ => h % 4 == 0 && a % 2 == 0
  | .crget _ a _ => a % 2 == 0
  | .crld _ h _ => h % 4 == 0
  | .cnop _ _ _ => true
  | .cnad _ _ _ => true
  | .cnrd _ _ _ => true
  | .cncl _ _ _ => true
  | .cnaj _ h _ _ => h % 4 == 0
  | .sortk _ h _ _ => h % 4 == 0
  | .ralc d h _ _ => h % 4 == 0 && d % 2 == 0
  | .rcmt h a _ => h % 4 == 0 && a % 2 == 0
  | .rget d h _ => h % 4 == 0 && d % 2 == 0
  | .prim h _ _ => h % 4 == 0
  | .tex _ h _ _ => h % 4 == 0
  | .evIllegalWord _ => true
  | .evMemoryAccessPerform _ => true
  | .evLoadSectorReturn _ _ => true
  | .evTranslationWalk _ _ => true
  | .evReleaseWindow _ => true
  | .evKerfFetch _ => true
  | .evKerfSlot _ => true
  | .evKerfPromotion _ => true
  | .evKdrnDrain _ => true
  | .evKzeroClear _ => true
  | .evKstatReport _ => true
  | .evSkidderCopy _ => true
  | .evCanopyLaneStep _ => true
  | .uNload => true
  | .uBoxn => true
  | .uTrin => true
  | .uSphn => true
  | .uOrdn => true
  | .uPushn => true
  | .uPopn => true
  | .uJmp _ => true
  | .uJz _ _ _ => true
  | .uJnz _ _ _ => true
  | .uLeaf _ _ => true
  | .uNextp => true
  | .uHitc _ => true
  | .uAnyh => true
  | .uXfrm => true
  | .uXret => true
  | .uSetf _ => true
  | .uClrf _ => true
  | .uCntr _ _ => true
  | .uMiss => true
  | .uDone => true
  | .uFaultx _ => true
  | .evRayTakeUp _ _ => true
  | .evRayDelivery _ => true
  | .evRasterSampleUpdate _ => true
  | .evTextureReturn _ _ => true
  | .evRalcServe _ => true
  | .evRalcStallExpiry _ => true
  | .evBatchTimeout _ => true
  | .evRecordReturn _ => true
  | .evRscopePressure _ => true
  | .evScopeServe _ => true
  | .evYieldExpiry _ => true
  | .evWatchdog _ => true
  | .evFullSaveEscalation _ => true
  | .evTeamSave _ => true
  | .evTeamRestore _ => true
  | .evTeamPlacement _ => true
  | .evLaunchPacket _ => true
  | .evLaunchCompletion _ => true
  | .evLqbell _ => true
  | .evPreemptRequest _ => true
  | .evPreemptCancel _ => true
  | .evPrcntRead => true
  | .evTlbInvalidateVa => true
  | .evTlbInvalidateContext => true
  | .evTlbInvalidateAll => true
  | .evTlbInvalidateDone => true
  | .evIcacheInvalidateVa => true
  | .evIcacheInvalidateContext => true
  | .evIcacheInvalidateAll => true
  | .evIcacheInvalidateDone => true
  | .evTkill _ => true
  | .evFaultResponse _ => true
  | .evFaultResponseFail _ => true
  | .evFaultQueueEntry => true
  | .evFaultQueueDisable => true
  | .evCecntClear => true
  | .evUecntClear => true
  | .evFsetWrite _ _ => true
  | .evFrequencyChange _ => true
  | .evBudgetWindow => true
  | .evScrub _ _ => true
  | .evCoreStateUncorrectable _ _ _ => true
  | .evProtectiveTrip => true
  | .evDeviceReset => true
  | .evDieReady _ _ => true
  | .evStackReady _ _ => true
  | .evPortReady _ _ => true
  | .evFirmwareUpdate _ _ _ => true
  | .evPtpSync _ => true
  | .evPortDown _ => true
  | .evHostCxlMemWrite _ _ => true
  | .evRegisterWrite _ _ _ => true
  | .evIllegalMicroword _ => true
  | .evPeerMemoryAccess _ _ _ => true

/-- A source group lies in v0 to v111, or in s0 to s15 (R143). -/
def sourceOk (g : Nat × Nat) : Bool :=
  decide (g.1 + g.2 ≤ 112) || (decide (112 ≤ g.1) && decide (g.1 + g.2 ≤ 128))

/-- The register fields name registers that exist, and at most one source is a scalar (R18, R79, R143, R220). -/
def registersOk (h : Shape) : Bool :=
  h.vs.all sourceOk
  && (h.vo ++ h.vd).all (fun g => decide (g.1 + g.2 ≤ 112))
  && (h.ss ++ h.sd).all (fun g => decide (g.1 + g.2 ≤ 64) && decide (g.1 < 64))
  && (h.ps ++ h.pd ++ h.qs ++ h.qd).all (fun n => decide (n < 8))
  && decide ((h.vs.filter fun g => decide (112 ≤ g.1)).length ≤ 1)

/-- The word's own part of the issue checks 2, 3 and 5 of R91. -/
def wordOk (i : Instr) : Bool :=
  fits i && allowed i && microAllowed i && aligned i && registersOk (shape i)

end Sys2Proof
end

