-- ==== Sys2Proof/Machine/State.lean ====
section
/-!
DEFINITION. The state of the ZD9440 as plain data, the reasons a step can stop, and the state after device reset. A fact
the spec keeps per lane or per register is one sparse store of pairs; what a key means is said at the field.
-/
namespace Sys2Proof.Machine

/-- Why the machine stops with a fault. -/
inductive Fault where
  /-- Raised by an instruction executed when no fragment is selected to issue: no step of the machine does this (safe). -/
  | nothingIssues
  /-- Raised by a micro-operation executed when no Cruiser holds the selected ray: no step does this (safe). -/
  | noRay
deriving DecidableEq, Repr

/-- Why the model gives an instruction no meaning. -/
inductive Refusal where
  /-- Raised by an arm of `exec` whose meaning is not written yet (safe). -/
  | notModelled (mnemonic : String)
deriving DecidableEq, Repr

/-- An access to memory that is still to perform: one naturally aligned piece of one lane (R182, R191). -/
structure Access where
  lane : Nat
  /-- Which word of the lane's operand it carries. -/
  part : Nat
  va : Nat
  /-- The physical key (R422; SRAM space from 2^63). -/
  pa : Nat
  size : Nat
  /-- The value stored, little-endian; 0 for a load. -/
  data : Nat
  /-- Race-checked: the SRAM space, or a page mapped CHK (R334). -/
  chk : Bool
  /-- It has updated the L1 lines that it hits, and is on its way to its home (R184). -/
  early : Bool := false
deriving DecidableEq, Repr

/-- A piece of loaded data that has performed and waits for its sector to return (R188). -/
structure Returned where
  lane : Nat
  part : Nat
  sector : Nat
  data : Nat
deriving DecidableEq, Repr

/-- A trap that waits for an instruction boundary (R225, R303, R442). -/
structure HeldTrap where
  cause : Nat
  sub : Nat
  addr : Nat
  /-- The word of the operation that stopped, where its trap names none of R225's paths (R444). -/
  word : Nat := 0
  /-- RACEREC, for a conflict that an operation meets after its issue (R339). -/
  race : List Byte := []
deriving DecidableEq, Repr

/-- An instruction with its operands as captured at issue, to be issued again (R302, R446, R448). -/
structure Captured where
  pc : Addr
  instr : Instr
  mr : Nat
  /-- The lanes it acts for. -/
  act : Mask
  /-- Captured vector words, by register, plane and lane. -/
  vec : Sparse Word
  /-- Captured scalar words, by register. -/
  scal : Sparse Word
  trapping : Bool
  withdrawn : Bool
  /-- The lanes whose TFLAGS an SPRW that follows it has given since (R33). -/
  noFlags : Mask := 0
deriving DecidableEq, Repr

/-- A window opened by an L- or E-format instruction (R85, R86). -/
structure Window where
  op : Nat
  la : Nat
  left : Nat
  /-- The pending set: v r is r, s k is 128 + k, p k is 192 + k, q k is 200 + k. -/
  regs : List Nat
deriving DecidableEq, Repr

/-- The states of a fragment that R297 names, HELD apart; `gone` is a fragment that has no lanes left. -/
inductive FragState where
  | running | joined | heldOverflow | suspended | stopped | gone
deriving DecidableEq, Repr

/-- A fragment (R22, R28, R29, R77, R113, R297). -/
structure Frag where
  id : Nat
  pc : Addr
  mr : Nat
  exec : Mask
  clr : Mask
  /-- The link stack, most recent first (R113). -/
  links : List Addr
  st : FragState
  /-- Another fragment's trap handler runs (R120, R297). -/
  held : Bool
  /-- When it last issued, by the group's issue count (R295). -/
  last : Nat
  wins : List Window
  /-- Entries still to be issued again before PC (R302, R448). -/
  inject : List Captured
  traps : List HeldTrap
  /-- The token of a barrier it has arrived at (R205, R208). -/
  token : Option Nat
  /-- The value an MWAIT that waits has captured, and whether a write has woken it (R214). -/
  watching : Option Nat
  woken : Bool
  /-- The live map at which it stopped: the 64 bytes of its entry, little-endian (R123, R124). -/
  liveMap : Option Nat
  /-- The line that it executes, as it was fetched: its address and bytes (R435). -/
  code : Option (Nat × List Byte) := none
deriving DecidableEq, Repr

/-- A join record or an overflow entry (R106, R445). -/
structure Join where
  spill : Bool
  slot : Nat
  /-- None while open (R109). -/
  addr : Option Addr
  depth : Nat
  mask : Mask
  wait : Mask
  clr : Mask
  mr : Nat
  /-- The link stack at the split, for the fragments that continue from here (R113). -/
  links : List Addr
  /-- The arrival PC of the fragment that arrived last through EXECW (R29). -/
  arrival : Option Addr
  /-- The deferred subset of an overflow entry, its PC, and whether it now runs (R107, R445). -/
  dmask : Mask
  dpc : Addr
  dstate : Nat
deriving DecidableEq, Repr

/-- A parked fragment (R301, R449). -/
structure Parked where
  cap : Captured
  frag : Nat
  /-- The issuing fragment's MR, which is not that of an entry issued again under another (R301, R448). -/
  mr : Nat
  clr : Mask
  links : List Addr
  cause : Nat
  /-- The lowest parked lane's address (R449). -/
  addr : Nat
  wr : Bool
  /-- Its fault-queue entry, none while the fault is held for a full ring (R452) or waits for a saved team (R319). -/
  seq : Option Nat
  /-- The saved team whose restore it waits for (R319). -/
  waits : Option Nat
  /-- Where its lanes go on once the instruction has performed: what the queue still held, then a PC (R302, R448). -/
  rest : List Captured
  next : Addr
  /-- It parked while the group's trap handler ran. -/
  inHandler : Bool
deriving DecidableEq, Repr

/-- The state of a transaction (R216). -/
inductive TxState where
  | none
  | opened (t : Addr)
  | aborted (t : Addr)
deriving DecidableEq, Repr

/-- A transaction's holdings (R216 to R219). -/
structure Tx where
  st : TxState
  mr : Nat
  exec : Mask
  sd : Nat
  /-- Granules of the set, with whether the transaction has written them. -/
  set : List (Nat × Bool)
  /-- Held stores, by physical key. -/
  stores : Sparse Byte
  /-- The first operation issued inside it. -/
  firstOp : Nat
deriving DecidableEq, Repr

/-- Regions that R326 and R327 order before a point: a group slot, its first region and one past its last. What the detector
knows beyond the tables of R337, so that it keeps R340. DEDUCED (log entry 23). -/
abbrev Before := List (Nat × Nat × Nat)

/-- An atomic write as a later ATOM of its word reads it (R326, R336, R337): the writer's slot and start region, the bound and scope of
its latest release with the horizon table at it, and for each scope at which it carries an edge of R326 what that edge orders. -/
structure Release where
  gs : Nat
  first : Nat
  bound : Nat
  scope : Nat
  edges : List (Nat × Before)
  table : List (Nat × Nat) := []
deriving DecidableEq, Repr

/-- A group's race-detector state (R335, R337). -/
structure RaceState where
  rg : Nat
  start : Nat
  /-- The barrier cut: bounds by group slot. -/
  cut : List (Nat × Nat)
  /-- The horizon table, most recently raised first. -/
  horizon : List (Nat × Nat)
  ovf : Bool
  cutTime : Nat
  /-- The bound and scope of the latest release, with the horizon table at it. -/
  release : Nat
  releaseScope : Nat
  releaseTable : List (Nat × Nat)
  /-- For each word that an ATOM has read and no acquire has taken up: the region of the ATOM, and the atomic writes it reads, the
  latest first (R326, R337). -/
  reads : List (Nat × List Release)
  /-- What R326 and R327 order before the group's region, and what was so at its latest FENCE with release of each scope. -/
  before : Before := []
  fences : List (Nat × Before) := []
deriving DecidableEq, Repr

/-- A live trap handler's frame, and what TRET restores that the handler cannot edit (R120 to R122, R444). -/
structure Handler where
  frag : Nat
  frame : Nat
  heldLanes : Mask
  clr : Mask
  joins : List Join
  queue : List Captured
  fpc : Addr
  token : Option Nat
  /-- The transaction state that returns with the TRET (R219). -/
  tx : Tx
deriving DecidableEq, Repr

/-- An entry of the pending-ray table (R365). -/
structure PendingRay where
  lane : Nat
  op : Nat
  record : Nat
  dest : Nat
deriving DecidableEq, Repr

/-- A pre-emption request that covers a team (R123, R409). -/
structure Request where
  since : Nat
  byDispatcher : Option Nat
deriving DecidableEq, Repr

/-- A group (R8 to R36, R106, R183, R291 to R313). -/
structure Group where
  /-- GS (R335); a group that has ended or is saved stands under a number no slot has, `savedSlot`. -/
  gs : Nat
  gid : Nat
  role : Nat
  team : Nat
  /-- From the launch: TEAMID, GRIDID, DIEID, D, the planes named sx and sy, the context (R32, R170, R386). -/
  teamId : Word
  gridId : Word
  dieId : Word
  tangents : Fin 9
  sx : Option Nat
  sy : Option Nat
  ctx : Nat
  ended : Bool
  /-- Lanes that the grid covers (R34). -/
  lanes : Mask
  alloc : Nat
  /-- Open scopes, most recent first (R127). -/
  scopes : List Nat
  /-- Registers of the open scopes while saved under R129. -/
  savedScopes : Option (Sparse Word)
  /-- Vector words, by (register × 16 + plane) × 32 + lane; plane 0 is the value, k + 1 is plane k. -/
  vregs : Sparse Word
  sregs : Sparse Word
  /-- p1 to p7. -/
  preds : Sparse Mask
  /-- q1 to q7: q k in bit k. -/
  qs : BitVec 8
  /-- TFLAGS, bits by lane. -/
  tflags : Sparse (BitVec 3)
  /-- RACEMISS: the MANY count and the overflow count (R32, R340). -/
  missMany : Nat
  missOvf : Nat
  frags : List Frag
  nextFrag : Nat
  issued : Nat
  /-- Join records and overflow entries, most recent first (R106). -/
  joins : List Join
  parked : List Parked
  handler : Option Handler
  /-- The watch: address, its physical key (R213). -/
  watch : Option (Nat × Nat)
  tx : Tx
  race : RaceState
  /-- The wait count W (R395). -/
  waitCount : Nat
  /-- Out of issue choice since this time (R126). -/
  yielded : Option Nat
  order : Nat
  cls : Nat
  /-- The fragment and the count of an RSCOPE that waits for space (R127, R309). -/
  wantsScope : Option (Nat × Nat)
  granted : Bool
  /-- The watchdog's count, the last window counted, and whether a region ended in it (R443). -/
  dogCount : Nat
  dogWindow : Nat
  dogEnded : Bool
  rays : List PendingRay
  request : Option Request
  /-- Stopped for a full save (R411). -/
  fullStop : Bool
  /-- L1 lines filled before this count are retired for the group (R200). -/
  l1Mark : Nat
  /-- When its writes were sent, for package and fabric releases, each under one more than the number of its operation; under 0
  the writes of other paths that an XFENCE has covered (R199, R202, R332). -/
  sent : List (Nat × Nat)
  /-- When the latest write of each engine path was made (R202). -/
  pathSent : List (Nat × Nat)
  /-- Each FENCE, XFENCE and RCMT in progress: its fragment, the paths whose later operations it holds back, a mask of R201 or 255
  for every instruction, and the time that it has to reach (R199, R201). -/
  fencing : List (Nat × Nat × Option Nat)
  /-- Acquires whose earlier loads have not completed: the number of the first later operation, the scope, and the region that the
  acquire ended (R200, R337). -/
  holds : List (Nat × Nat × Nat)
  /-- When the group last issued an instruction or had an operation complete. -/
  quiet : Nat
  /-- The SORTK it has issued (R249). -/
  sorting : Option Nat
  saved : Bool
deriving DecidableEq, Repr

/-- An operation of L or E format from issue until it is counted out (R85, R183, R221). -/
structure Op where
  id : Nat
  gs : Nat
  frag : Nat
  path : Option Path
  cap : Captured
  region : Nat
  /-- Accesses still to perform. -/
  todo : List Access
  /-- Data that has performed and is not yet in its registers. -/
  got : List Returned
  /-- What the operation holds besides: numbers whose meaning its family gives. -/
  nums : List Nat
  begun : Bool
  complete : Bool
  /-- Registers a Kerf operation holds: group slot and register (R149, R228). -/
  holds : List (Nat × Nat)
  /-- A fault stopped it: the fault-queue entry, none while the fault is held for a full ring. -/
  suspended : Option (Option Nat)
  /-- The saved team for whose restore it is suspended, without an entry (R225). -/
  waits : Option Nat
  /-- When it was issued, in ns (R250). -/
  issuedAt : Nat
  /-- What was ordered before its issue (R327), and the group's latest release before it (R336). -/
  before : Before := []
  rel : Release := { gs := 0, first := 0, bound := 0, scope := 0, edges := [] }
  /-- The time from which on nothing has held its accesses back in the core (R199, R200, R332). -/
  leaves : Nat := 0
  /-- The granules of an engine's ranges that were not reached at its issue, and whether it writes them: they are checked when it
  performs there (R224, R334). -/
  later : List (Nat × Bool) := []
deriving DecidableEq, Repr

/-- A barrier word with the detector's cut and horizon set (R204, R208, R337). -/
structure Barrier where
  expect : Nat
  phase : Nat
  /-- Groups that have arrived: GROUPID for a team barrier, 32 c + GROUPID for a cluster barrier. -/
  arrived : List Nat
  cut : List (Nat × Nat)
  horizon : List (Nat × Nat)
  horizonOvf : Bool
  /-- Bounds and tables of the arrivals of the current phase. -/
  pendingCut : List (Nat × Nat)
  pendingHorizon : List (Nat × Nat)
  /-- What the completed phases order before a waiting group, and what the current phase's arrivals will (R326). -/
  before : Before := []
  pendingBefore : Before := []
deriving DecidableEq, Repr

/-- A Kerf tile element's accumulator and narrow sum are kept sparsely, by row × 64 + column (R57, R368). -/
structure Tile where
  acc : Sparse Nat
  nar : Sparse Nat
  c : Nat
  ov : Bool
  nv : Bool
  sat : Bool
  td : Bool
deriving DecidableEq, Repr

/-- A race-detector tag entry (R336). -/
structure Entry where
  gs : Nat
  rg : Nat
  atomic : Bool
  scope : Nat
  time : Nat
deriving DecidableEq, Repr

/-- A granule's tag (R336). -/
structure Tag where
  writer : Option Entry
  bound : Nat
  boundScope : Nat
  rda : Option Entry
  rdb : Option Entry
  many : Bool
  manyTeam : Option Nat
  manyEpoch : Nat
deriving DecidableEq, Repr

/-- An engine arrival on a completion barrier: the word's key, the phase, the issuing group slot, its bound (R337), and what was
ordered before the operation's completion (R326). -/
structure Arrived where
  key : Nat
  phase : Nat
  gs : Nat
  bound : Nat
  before : Before
deriving DecidableEq, Repr

/-- A team (R204, R305 to R319, R335). -/
structure Team where
  serial : Nat
  epoch : Nat
  grid : Nat
  /-- TEAMID. -/
  index : Nat
  core : Nat
  /-- The numbers under which its groups stand, by GROUPID, and the slots they were placed in. -/
  slots : List Nat
  home : List Nat
  tbase : Nat
  tbytes : Nat
  /-- Position in a cluster launch, with the four TBASEs; none outside one (R317). -/
  cluster : Option (Nat × List Nat)
  tiles : List Nat
  barriers : Sparse Barrier
  /-- It has completed a CBAR phase (R118). -/
  passedCbar : Bool
  ended : Bool
  /-- The batch's records, for a consumer team (R252): landing and record numbers. -/
  batch : Option (Nat × List Nat)
  consumerDone : Bool
  request : Option Request
  /-- Held in a save unit, by number (R407). -/
  unit : Option Nat
  saved : Bool
  /-- Awaits the answer to its KIND 3 entry (R456). -/
  killedSeq : Option Nat
  killed : Bool
  /-- The budget it charges, and the launch behind it: for a consumer team that of the commit which formed its batch (R399, R402). -/
  budget : Nat
  launch : Nat
  /-- What the save unit holds of its SRAM bytes and, by granule, their tags, by the place in the team's bytes, and of its tiles
  by number (R408, R413). -/
  store : Sparse Byte
  storedTags : Sparse Tag
  storedTiles : Sparse Tile
  /-- The blocks that the save wrote, which is what their integrity tags stand for: the group slot they belong to, the address,
  the bytes (R408, R415). -/
  image : List (Nat × Nat × List Byte)
  /-- The ranges the save wrote: first byte and one past the last (R410). -/
  storedRanges : List (Nat × Nat)
  /-- What its groups that have ended order before a barrier completion (R326), and the atomic writes and commits of its saved
  words. -/
  before : Before := []
  storedSyncs : Sparse (List Release) := []
  storedCommits : Sparse (List (Bool × Release)) := []
  /-- The engine arrivals on completion barriers in its saved words, by the place of the word (R337, R417). -/
  storedArrivals : List Arrived := []
deriving DecidableEq, Repr

/-- A grid: its launch packet as read, and its progress (R388 to R393, R427 to R429). -/
structure Grid where
  key : Nat
  queue : Nat
  packet : List Byte
  ctx : Nat
  budget : Nat
  qclass : Nat
  route : List (Nat × Nat × Nat)
  /-- Dies of this device with their x and y within the rectangle. -/
  dies : List (Nat × Nat × Nat)
  nextTeam : Nat
  teams : Nat
  lastCore : Nat
  kills : Nat
  status : Nat
  reason : Nat
  landings : List Nat
  /-- A grid the graph scheduler made for a landing (R399). -/
  consumerOf : Option Nat
  /-- L1 lines filled before this count do not serve its teams: they are older than the doorbell that covers it (R432). -/
  l1Mark : Nat
  accepted : Bool
  finished : Bool
  /-- What its groups that have ended order before a later SERIAL launch (R393). -/
  before : Before := []
deriving DecidableEq, Repr

/-- A cached sector or instruction line (R184, R435): whose it is, where, its bytes, when it was filled. -/
structure Line where
  core : Nat
  pa : Nat
  bytes : List Byte
  fill : Nat
  ctx : Nat
  va : Nat
  /-- The group slots that have since written bytes of it by an atomic, which the line does not show (R182, R184). -/
  barred : List Nat := []
deriving DecidableEq, Repr

/-- A write that some dies may not see yet (R199, R332), as one whole: its number, the bytes that stood at its keys, the group slot and
region that made it, when the window N + 2 of package scope begins, and the dies that have seen it. -/
structure Recent where
  seq : Nat
  cells : List (Nat × Byte)
  gs : Nat
  rg : Nat
  til : Nat
  seen : List Nat := []
deriving DecidableEq, Repr

/-- A cached translation (R420, R421, R424, R425). -/
structure Translation where
  /-- The cache that holds it: the data TLB of core c is c, its instruction TLB 256 + c, the TLB of cluster k 512 + k. -/
  cache : Nat := 0
  ctx : Nat
  va : Nat
  size : Nat
  base : Nat
  flags : Nat
deriving DecidableEq, Repr

/-- An entry of levels 4 to 1 that a walk cache holds (R424): the table of a level for the addresses with these upper bits. -/
structure TableEntry where
  die : Nat := 0
  ctx : Nat
  level : Nat
  upper : Nat
  table : Nat
deriving DecidableEq, Repr

/-- An invalidation under way, with its scope, its page and its context as they were at GO (R425, R435). -/
structure Command where
  scope : Nat
  va : Nat
  ctx : Nat
deriving DecidableEq, Repr

/-- A ray held by a Cruiser or the device ray queue: its record address and context, and the transient state (R261). -/
structure Ray where
  id : Nat
  record : Nat
  gs : Nat
  ctx : Nat
  grid : Nat
  core : Nat
  /-- The 192 bytes of the record as the Cruiser holds it (R359). -/
  bytes : List Byte
  layout : List Byte
  /-- The node buffer: its address and bytes. -/
  node : Option (Nat × List Byte)
  /-- Child list: entry t, child index, canonical reference. -/
  kids : List (Nat × Nat × Nat)
  /-- The candidate hit: t, primitive, instance id, barycentrics. -/
  cand : Option (List Nat)
  invd : List Nat
  /-- Code once finished, until its results are delivered. -/
  code : Option Nat
  /-- Waiting in the device ray queue after service (R364). -/
  queued : Bool
  /-- The fault-queue entry it waits for; none while it is held for a full ring. -/
  faulted : Option (Option Nat)
  /-- The budget it charges, and the address of its layout descriptor (R364, R402). -/
  budget : Nat
  layoutVa : Nat
  /-- An access it has to retry: 1 a write-back, 2 the reads of a take-up (R475). -/
  stuck : Nat
  /-- Only the code is delivered (R475). -/
  only : Bool
  /-- The micro-PC has passed word 2,047, which its field cannot hold (R275). -/
  past : Bool
  /-- The step count has come to 2^24, which its field cannot hold (R284, R359). -/
  full : Bool
  /-- Its team is killed: nothing is delivered (R367). -/
  mute : Bool
  /-- The OWNER that its record held at its fault (R475). -/
  owner : Option Nat := none
deriving DecidableEq, Repr

/-- A cruise program's image in the microcode store of a core: the grid and the id it is bound to, its address and bytes (R1, R245). -/
structure Microcode where
  core : Nat
  grid : Nat
  id : Nat
  base : Nat
  image : List Byte
deriving DecidableEq, Repr

/-- A committed record: its number, when it was committed, the group and the region bound of the RCMT, the launch and the budget of
the team (R337, R399, R402). -/
structure Commit where
  record : Nat
  time : Nat
  gs : Nat
  bound : Nat
  grid : Nat
  budget : Nat
  before : Before := []
deriving DecidableEq, Repr

/-- A batch that waits for its team: TEAMID, the budget it charges, the launch behind it, and its records, oldest first (R399,
R402). -/
structure Batch where
  index : Nat
  budget : Nat
  launch : Nat
  records : List Commit
deriving DecidableEq, Repr

/-- A landing the graph scheduler holds (R397 to R399). -/
structure Landing where
  key : Nat
  ctx : Nat
  recbase : Nat
  cap : Nat
  rsize : Nat
  batch : Nat
  timeout : Nat
  stall : Nat
  consumer : Nat
  free : List Nat
  /-- Allocated, uncommitted records, with the team that allocated each. -/
  allocated : List (Nat × Nat)
  /-- Pending records, oldest first. -/
  pend : List Commit
  waiting : List Nat
  batches : Nat
  lastBatch : Nat
  /-- The reason its consumer packet failed by, 0 where it passed (R400). -/
  checked : Option Nat
  /-- The launches that have committed to it. -/
  grids : List Nat
  /-- Batches that wait for their team. -/
  formed : List Batch
  /-- The groups that have committed to it, by slot, with what each had issued by its latest commit. -/
  makers : List (Nat × Nat)
deriving DecidableEq, Repr

/-- A fault that needs service, from detection to answer (R451 to R453). -/
structure FaultRec where
  kind : Nat
  cause : Nat
  ctx : Nat
  grid : Nat
  gs : Nat
  vaddr : Nat
  paddr : Nat
  record : Nat
  info : Nat
  time : Nat
  /-- Whom the answer reaches: parked fragment's captured mask, operation or ray id, or team serial. -/
  target : Nat
  mask : Mask
  seq : Option Nat
deriving DecidableEq, Repr

/-- A budget record (R402). -/
structure Budget where
  memb : Word
  skb : Word
  kshare : Word
  rays : Nat
deriving DecidableEq, Repr

/-- A cluster's frequency block and trace (R457 to R463). -/
structure Cluster where
  fset : Nat
  fcur : Nat
  chg : Nat
  energy : Nat
  head : Nat
  pending : Option (Nat × Nat)
  /-- The trace's entries that are kept, the latest first: number, TIME, CODE (R462). -/
  trace : List (Nat × Nat × Nat)
  /-- The clocks that had passed at the TIME of the oldest of them (R463). -/
  base : Nat := 0
deriving DecidableEq, Repr

/-- A write of the device's or the outside's own that waits for the stack of a byte, of a table or of a context record (R469): bytes at a
physical address, the parked fragments of the group in a slot, the SAMAP bit of a save
unit that is freed. -/
inductive Late where
  | bytes (pa : Nat) (bs : List Byte)
  | parked (gs : Nat)
  | unit (grid ctx gs unit : Nat)
deriving DecidableEq, Repr

/-- What the device does next when it has been decided. -/
inductive Action where
  /-- The fragment of a group issues its next instruction. -/
  | issue (gs frag : Nat)
  /-- A ray performs its next microword. -/
  | micro (ray : Nat)
  /-- An event happens. -/
  | event (i : Instr)
  /-- Time passes. -/
  | elapse
  /-- The oldest action of the outside world reaches the device. -/
  | input
deriving DecidableEq, Repr

/-- The machine. -/
structure State where
  /-- The group that issues, its issuing fragment, and whether they are selected. The other groups stand in `groups`. -/
  me : Group
  fr : Frag
  live : Bool
  groups : List Group
  /-- Captured operands of the instruction that issues again. -/
  ov : Option Captured
  /-- The ray whose micro-operation performs, and whether one is selected. The other rays stand in `rays`. -/
  ray : Ray
  rayLive : Bool
  rays : List Ray
  /-- The Cruisers' microcode stores, the latest fetched first (R245). -/
  codes : List Microcode
  ops : List Op
  nextOp : Nat
  teams : List Team
  nextTeam : Nat
  grids : List Grid
  nextGrid : Nat
  clusterBarriers : Sparse Barrier
  tiles : Sparse Tile
  landings : List Landing
  /-- Memory by physical key (R422); the SRAM space from 2^63. -/
  memory : List Host.Cell
  /-- Poisoned sectors and words, by physical key of the first byte (R464). -/
  poison : List Nat
  tags : Sparse Tag
  /-- The atomic writes that an ATOM of a word reads, by key / 4, the latest first (R326). -/
  syncs : Sparse (List Release)
  /-- The last release of each group of a retired team, by its start region × 65,536 + slot (R337). -/
  lastReleases : Sparse Nat
  /-- Commits by granule, with whether each wrote it (R326). -/
  commits : Sparse (List (Bool × Release))
  /-- Writes outside the SRAM space whose windows have not passed, the latest first (R199, R332). -/
  recent : List Recent
  l1 : List Line
  /-- The instruction caches: of each core, and of each die, whose lines stand under the die's number (R1, R435). -/
  icache : List Line
  l2i : List Line
  fills : Nat
  tlb : List Translation
  /-- The walk caches. -/
  walks : List TableEntry
  /-- The core whose unit acts, for the translation caches that serve it (R424). -/
  unit : Nat
  now : Nat
  /-- The time up to which ready groups' waiting has been counted (R395). -/
  counted : Nat
  tick : Nat
  turn : Option Action
  inputs : List Instr
  /-- Last region used in each group slot (R335), and start orders given. -/
  lastRegion : Sparse Nat
  starts : Nat
  /-- CXL.io registers (R386 to R470). -/
  lqtab : BitVec 64
  ctxtab : BitVec 64
  prcnt : Word
  tva : BitVec 64
  tctx : BitVec 16
  tlbBusy : Bool
  tlbRun : Command
  icva : BitVec 64
  icctx : BitVec 16
  icBusy : Bool
  icRun : Command
  mesh : BitVec 8
  meshWritten : Bool
  ptpLock : Bool
  ptpOffset : Nat
  ptpGood : Nat
  wdog : BitVec 24
  fqbase : BitVec 64
  fqEn : Bool
  fqLog : BitVec 5
  fqprod : Word
  fqcons : Word
  faults : List FaultRec
  fqSignalled : Option Nat
  budgets : Sparse Budget
  /-- Charges of the current window: (budget × 8 + kind) × 256 + cluster or core. -/
  charges : Sparse Nat
  window : Nat
  clusters : Sparse Cluster
  cecnt : Word
  uecnt : Word
  ueaddr : BitVec 64
  uesrc : Word
  /-- The window in which vector 6 was last signalled (R467). -/
  ueSignalled : Option Nat
  ready : Word
  failed : Word
  trip : Bool
  firmware : Nat
  firmwareNext : Option Nat
  /-- The previous image, kept until a die has accepted the one that took effect at the reset (R470). -/
  firmwareKept : Option Nat
  /-- Reports of a protective trip sent over MCTP (R461). -/
  mctp : Nat
  /-- MSI-X vectors signalled, latest first. -/
  msix : List Nat
  /-- For each request for pre-emption, the teams it covers that are not yet settled (R409). -/
  preq : List (List Nat)
  /-- The last queue that placed a team, by class, for the round robin (R391). -/
  lastQueue : Sparse Nat
  /-- Engine arrivals on completion barriers (R337). -/
  arrivals : List Arrived
  /-- TAIL of each queue, plus 1, as its latest doorbell showed it (R387). -/
  rung : Sparse Nat
  /-- The count of L1 fills at each queue's latest doorbell (R432). -/
  bells : Sparse Nat
  /-- Doorbells whose read of the queue table waits for its stack, oldest first (R387, R469). -/
  belated : List Nat
  /-- Writes that wait for a stack, oldest first (R469). -/
  late : List Late
deriving DecidableEq, Repr

/-- No instruction captured. -/
def Captured.none : Captured :=
  { pc := 0, instr := .nop, mr := 0, act := 0, vec := [], scal := [], trapping := false, withdrawn := false }

/-- A fragment with no lanes. -/
def Frag.empty : Frag :=
  { id := 0, pc := 0, mr := 2, exec := 0, clr := 0, links := [], st := .suspended, held := false, last := 0, wins := [],
    inject := [], traps := [], token := none, watching := none, woken := false, liveMap := none }

/-- No transaction. -/
def Tx.idle : Tx := { st := .none, mr := 0, exec := 0, sd := 0, set := [], stores := [], firstOp := 0 }

/-- The detector's state of a group that starts in region r (R335, R337). -/
def RaceState.fresh (r : Nat) : RaceState :=
  { rg := r, start := r, cut := [], horizon := [], ovf := false, cutTime := 0, release := 0, releaseScope := 0,
    releaseTable := [], reads := [] }

/-- A slot that holds no group. -/
def Group.empty : Group :=
  { gs := 0, gid := 0, role := 0, team := 0, teamId := 0, gridId := 0, dieId := 0, tangents := 0,
    sx := none, sy := none, ctx := 0, ended := true, lanes := 0, alloc := 0, scopes := [], savedScopes := none,
    vregs := [], sregs := [], preds := [], qs := 0, tflags := [], missMany := 0, missOvf := 0, frags := [], nextFrag := 0,
    issued := 0, joins := [], parked := [], handler := none, watch := none, tx := Tx.idle, race := RaceState.fresh 0,
    waitCount := 0, yielded := none, order := 0, cls := 0, wantsScope := none, granted := false, dogCount := 0,
    dogWindow := 0, dogEnded := false, rays := [], request := none, fullStop := false, l1Mark := 0, sent := [], pathSent := [],
    fencing := [], holds := [], quiet := 0, sorting := none, saved := false }

/-- No ray. -/
def Ray.empty : Ray :=
  { id := 0, record := 0, gs := 0, ctx := 0, grid := 0, core := 0, bytes := [], layout := [], node := none, kids := [],
    cand := none, invd := [], code := none, queued := false, faulted := none, budget := 0, layoutVa := 0, stuck := 0, only := false,
    past := false, full := false, mute := false }

/-- The frequency code at reset is 44 (R457). -/
def Cluster.reset : Cluster := { fset := 44, fcur := 44, chg := 0, energy := 0, head := 0, pending := none, trace := [] }

/-- A budget record at reset (R402). -/
def Budget.reset : Budget := { memb := 0, skb := 0, kshare := 0, rays := 0 }

/-- The device after power-up or reset (R468): no team, no launch, registers at their reset values, nothing ready. -/
def State.reset : State :=
  { me := Group.empty, fr := Frag.empty, live := false, groups := [], ov := none, ray := Ray.empty, rayLive := false,
    rays := [], codes := [], ops := [], nextOp := 0, teams := [], nextTeam := 0, grids := [], nextGrid := 0, clusterBarriers := [],
    tiles := [], landings := [], memory := [], poison := [], tags := [], syncs := [], lastReleases := [], commits := [], recent := [], l1 := [], icache := [], l2i := [], fills := 0, tlb := [], walks := [], unit := 0,
    now := 0, counted := 0, tick := 0, turn := none, inputs := [], lastRegion := [], starts := 0, lqtab := 0, ctxtab := 0, prcnt := 0,
    tva := 0, tctx := 0, tlbBusy := false, tlbRun := ⟨0, 0, 0⟩, icva := 0, icctx := 0, icBusy := false, icRun := ⟨0, 0, 0⟩, mesh := 0, meshWritten := false,
    ptpLock := false, ptpOffset := 0, ptpGood := 0, wdog := 0, fqbase := 0, fqEn := false, fqLog := 0, fqprod := 0,
    fqcons := 0, faults := [], fqSignalled := none, budgets := [], charges := [], window := 0, clusters := [], cecnt := 0,
    uecnt := 0, ueaddr := 0, uesrc := 0, ueSignalled := none, ready := 0, failed := 0, trip := false, firmware := 0, firmwareNext := none, firmwareKept := none, mctp := 0,
    msix := [], preq := [], lastQueue := [], arrivals := [], rung := [], bells := [], belated := [], late := [] }

end Sys2Proof.Machine
end

