-- ==== Sys2Proof/Machine/Access.lean ====
section
/-!
DEFINITION. Reading and writing the state a program names: vector registers with their planes, scalars, predicates, MR,
EXEC, PC, TFLAGS (R8 to R33), and the selection of the fragment that issues. Every register has one home, reached here.
-/
namespace Sys2Proof.Machine

/-- The value listed for a key, if any. -/
def lookup {α : Type} (m : List (Nat × α)) (k : Nat) : Option α := (m.find? fun p => p.1 == k).map (·.2)

/-- The list with the value at a key replaced or added. -/
def insertKey {α : Type} (m : List (Nat × α)) (k : Nat) (v : α) : List (Nat × α) := (k, v) :: m.filter fun p => p.1 != k

/-- The lanes of a mask, ascending. -/
def lanesOf (m : Mask) : List Nat := (List.range 32).filter fun l => m.getLsbD l

/-- The mask of one lane. -/
def laneBit (l : Nat) : Mask := 1#32 <<< l

/-- The mask of a list of lanes. -/
def maskOf (ls : List Nat) : Mask := ls.foldl (fun m l => m ||| laneBit l) 0

/-- The mask of the lanes where a test holds. -/
def maskBy (p : Nat → Bool) : Mask := maskOf ((List.range 32).filter p)

/-- The number of 1 bits. -/
def popcount (m : Mask) : Nat := (lanesOf m).length

/-- The lowest lane of a mask (FirstActive). -/
def firstLane (m : Mask) : Nat := (lanesOf m).headD 0

/-- The key of a register word: plane 0 is the value, plane k + 1 the tangent plane k. -/
def vkey (r plane lane : Nat) : Nat := (r * 16 + plane) * 32 + lane

/-- The fields of MR (R22). -/
def mrEt (mr : Nat) : Nat := mr % 16
def mrRm (mr : Nat) : Nat := mr / 16 % 8
def mrG (mr : Nat) : Nat := mr / 128 % 8
def mrGn (mr : Nat) : Bool := decide (mr / 1024 % 2 = 1)
def mrSat (mr : Nat) : Bool := decide (mr / 2048 % 2 = 1)
def mrFtz (mr : Nat) : Bool := decide (mr / 4096 % 2 = 1)
def mrTe (mr : Nat) : Bool := decide (mr / 8192 % 2 = 1)

/-- MR at a group's start (R22). -/
def mrReset (d : Nat) : Nat := if d = 0 then 0x000002 else 0x002002

/-- The MR under which the instruction issues: the fragment's, or the captured one (R302, R448). -/
def State.mr (s : State) : Nat :=
  match s.ov with
  | some c => c.mr
  | none => s.fr.mr

/-- The address of the instruction that issues. -/
def State.pc (s : State) : Addr :=
  match s.ov with
  | some c => c.pc
  | none => s.fr.pc

/-- A word of a group's vector registers. -/
def Group.vword (g : Group) (r plane lane : Nat) : Word := sget 0 g.vregs (vkey r plane lane)

/-- A lane predicate of a group; p0 reads as 1 in every lane (R20). -/
def Group.pred (g : Group) (p : Nat) : Mask := if p = 0 then BitVec.allOnes 32 else sget 0 g.preds p

/-- A uniform predicate; q0 reads as 1 (R21). -/
def Group.q (g : Group) (k : Nat) : Bool := k == 0 || g.qs.getLsbD k

/-- TFLAGS of a lane (R32). -/
def Group.flags (g : Group) (lane : Nat) : BitVec 3 := sget 0 g.tflags lane

/-- A vector word as the issuing instruction reads it: captured where it was captured (R302, R448). -/
def State.rdVP (s : State) (r plane lane : Nat) : Word :=
  match s.ov.bind fun c => lookup c.vec (vkey r plane lane) with
  | some w => w
  | none => s.me.vword r plane lane

/-- The value word of a vector register. -/
def State.rdV (s : State) (r lane : Nat) : Word := s.rdVP r 0 lane

/-- A scalar register as the issuing instruction reads it (R14). -/
def State.rdS (s : State) (k : Nat) : Word :=
  match s.ov.bind fun c => lookup c.scal k with
  | some w => w
  | none => sget 0 s.me.sregs k

/-- A scalar that a d field, or a field of 112 to 127, names: of a register that stands twice in SCAP the later word (R446, R448). -/
def State.rdSd (s : State) (k : Nat) : Word :=
  match s.ov.bind fun c => lookup c.scal.reverse k with
  | some w => w
  | none => sget 0 s.me.sregs k

/-- An even pair of scalars as a 64-bit value (R15). -/
def State.rdS64 (s : State) (k : Nat) : Addr := s.rdS (k + 1) ++ s.rdS k
def State.rdSd64 (s : State) (k : Nat) : Addr := s.rdSd (k + 1) ++ s.rdSd k

/-- A lane predicate (R20). -/
def State.rdP (s : State) (p : Nat) : Mask := s.me.pred p

/-- A uniform predicate (R21). -/
def State.rdQ (s : State) (k : Nat) : Bool := s.me.q k

/-- D, the number of tangent planes (R9). -/
def State.d (s : State) : Nat := s.me.tangents

/-- A vector source field: 112 to 127 read s0 to s15 in every lane (R16). -/
def State.srcV (s : State) (x lane : Nat) : Word := if x < 112 then s.rdV x lane else s.rdSd (x - 112)

/-- A plane of a vector source field; a scalar has zero planes (R16). -/
def State.srcP (s : State) (x k lane : Nat) : Word := if x < 112 then s.rdVP x (k + 1) lane else 0

/-- Two consecutive vector words of a lane as a 64-bit value. -/
def State.rdV64 (s : State) (r lane : Nat) : Addr := s.rdV (r + 1) lane ++ s.rdV r lane

/-- The guard of the issuing instruction: p[G], or its complement (R26). -/
def State.guardMask (s : State) : Mask :=
  if mrGn s.mr then ~~~(s.rdP (mrG s.mr)) else s.rdP (mrG s.mr)

/-- The active set A (R26): EXEC under the guard, or the captured lanes still in EXEC (R302, R448). -/
def State.active (s : State) : Mask :=
  match s.ov with
  | some c => c.act &&& s.fr.exec
  | none => s.fr.exec &&& s.guardMask

/-- A function applied to the issuing group. -/
def State.modMe (s : State) (f : Group → Group) : State := { s with me := f s.me }

/-- A function applied to the issuing fragment. -/
def State.modFr (s : State) (f : Frag → Frag) : State := { s with fr := f s.fr }

/-- A word written into a group's vector registers. -/
def Group.putV (g : Group) (r plane lane : Nat) (w : Word) : Group :=
  { g with vregs := sset 0 g.vregs (vkey r plane lane) w }

/-- Several words written. -/
def Group.putVs (g : Group) (ws : List (Nat × Word)) : Group := { g with vregs := ssets 0 g.vregs ws }

/-- The words of a value with all D planes zero, for one lane. -/
def plainWords (d r lane : Nat) (w : Word) : List (Nat × Word) :=
  (vkey r 0 lane, w) :: (List.range d).map fun k => (vkey r (k + 1) lane, 0)

/-- The words of a value and its planes, for one lane; planes not given are zero. -/
def tangentWords (d r lane : Nat) (w : Word) (ps : List Word) : List (Nat × Word) :=
  (vkey r 0 lane, w) :: (List.range d).map fun k => (vkey r (k + 1) lane, ps.getD k 0)

/-- Vector words written into the issuing group's registers. -/
def State.wrVs (s : State) (ws : List (Nat × Word)) : State := s.modMe fun g => g.putVs ws

/-- A scalar written (R14). -/
def State.wrS (s : State) (k : Nat) (w : Word) : State := s.modMe fun g => { g with sregs := sset 0 g.sregs k w }

/-- An even pair of scalars written (R15). -/
def State.wrS64 (s : State) (k : Nat) (w : Addr) : State :=
  (s.wrS k (w.setWidth 32)).wrS (k + 1) ((w >>> 32).setWidth 32)

/-- A lane predicate written in the lanes of `m`; a write to p0 is discarded (R20). -/
def Group.putP (g : Group) (p : Nat) (m v : Mask) : Group :=
  if p = 0 then g else { g with preds := sset 0 g.preds p ((g.pred p &&& ~~~m) ||| (v &&& m)) }

/-- A lane predicate written in the lanes of `m`. -/
def State.wrP (s : State) (p : Nat) (m v : Mask) : State := s.modMe fun g => g.putP p m v

/-- A uniform predicate written; a write to q0 is discarded (R21). -/
def State.wrQ (s : State) (k : Nat) (v : Bool) : State :=
  if k = 0 then s
  else s.modMe fun g =>
    { g with qs := if v then g.qs ||| (1#8 <<< k) else g.qs &&& ~~~(1#8 <<< k) }

/-- TFLAGS bits set in a lane; they only accumulate (R33). -/
def Group.addFlags (g : Group) (lane : Nat) (f : BitVec 3) : Group :=
  { g with tflags := sset 0 g.tflags lane (g.flags lane ||| f) }

/-- TFLAGS bits set in lanes. -/
def State.addFlags (s : State) (fs : List (Nat × BitVec 3)) : State :=
  s.modMe fun g => fs.foldl (fun g lf => g.addFlags lf.1 lf.2) g

/-- TZ, TK and TD (R32). -/
def flagTZ : BitVec 3 := 1
def flagTK : BitVec 3 := 2
def flagTD : BitVec 3 := 4

/-- The planes of a register lane are not all zero. -/
def State.hasTangent (s : State) (r lane : Nat) : Bool :=
  (List.range s.d).any fun k => s.rdVP r (k + 1) lane != 0

/-- The fragment continues at an address. -/
def State.jumpTo (s : State) (a : Addr) : State := s.modFr fun f => { f with pc := a }

/-- PC past the word just issued; a word issued again from a replay queue leaves PC where the frame put it (R302, R448). -/
def State.advance (s : State) : State :=
  match s.ov with
  | some _ => s
  | none => s.modFr fun f => { f with pc := f.pc + 4 }

/-! The other groups. -/

/-- The core of a group slot (R335). -/
def coreOf (gs : Nat) : Nat := gs / 256

/-- A fragment put back among the group's others; one that has no lanes left is dropped. -/
def Group.rejoin (g : Group) (f : Frag) : Group := if f.st = .gone then g else { g with frags := f :: g.frags }

/-- The selected fragment and group put back among the others. -/
def State.park (s : State) : State :=
  if s.live then
    { s with
      live := false
      groups := s.me.rejoin s.fr :: s.groups
      me := Group.empty
      fr := Frag.empty
      ov := none }
  else s

/-- The ray put back among the others. -/
def State.parkRay (s : State) : State :=
  if s.rayLive then { s with rayLive := false, rays := s.ray :: s.rays, ray := Ray.empty } else s

/-- The group in a slot, among the groups that are not selected. -/
def State.group? (s : State) (gs : Nat) : Option Group := s.groups.find? fun g => g.gs == gs

/-- A group by slot, the selected one included, with its fragments complete. -/
def State.anyGroup? (s : State) (gs : Nat) : Option Group :=
  if s.live && s.me.gs == gs then some (s.me.rejoin s.fr) else s.group? gs

/-- Every group, the selected one included. -/
def State.allGroups (s : State) : List Group :=
  if s.live then s.me.rejoin s.fr :: s.groups else s.groups

/-- A function applied to the group of a slot, whether selected or not; it must leave the fragments alone where the group
is selected, for those stand elsewhere. -/
def State.modGroup (s : State) (gs : Nat) (f : Group → Group) : State :=
  if s.live && s.me.gs == gs then s.modMe f
  else { s with groups := s.groups.map fun g => if g.gs == gs then f g else g }

/-- A function applied to one fragment of a group. -/
def State.modFrag (s : State) (gs frag : Nat) (f : Frag → Frag) : State :=
  if s.live && s.me.gs == gs && s.fr.id == frag then s.modFr f
  else s.modGroup gs fun g => { g with frags := g.frags.map fun x => if x.id == frag then f x else x }

/-- The fragment of a group selected to issue. -/
def State.select (s : State) (gs frag : Nat) : State :=
  let s := s.park
  match s.group? gs with
  | none => s
  | some g =>
    match g.frags.find? fun f => f.id == frag with
    | none => s
    | some f =>
      { s with
        live := true
        me := { g with frags := g.frags.filter fun x => x.id != frag }
        fr := f
        groups := s.groups.filter fun x => x.gs != gs }

/-- A ray selected to perform a micro-operation. -/
def State.selectRay (s : State) (id : Nat) : State :=
  let s := s.parkRay
  match s.rays.find? fun r => r.id == id with
  | none => s
  | some r => { s with rayLive := true, ray := r, rays := s.rays.filter fun x => x.id != id }

/-- A team by its serial. -/
def State.team? (s : State) (serial : Nat) : Option Team := s.teams.find? fun t => t.serial == serial

/-- A function applied to a team. -/
def State.modTeam (s : State) (serial : Nat) (f : Team → Team) : State :=
  { s with teams := s.teams.map fun t => if t.serial == serial then f t else t }

/-- A grid by its key. -/
def State.grid? (s : State) (key : Nat) : Option Grid := s.grids.find? fun g => g.key == key

/-- A function applied to a grid. -/
def State.modGrid (s : State) (key : Nat) (f : Grid → Grid) : State :=
  { s with grids := s.grids.map fun g => if g.key == key then f g else g }

/-- The grid of a team. -/
def State.gridOf (s : State) (team : Nat) : Option Grid := (s.team? team).bind fun t => s.grid? t.grid

/-- An operation by its number. -/
def State.op? (s : State) (id : Nat) : Option Op := s.ops.find? fun o => o.id == id

/-- A function applied to an operation. -/
def State.modOp (s : State) (id : Nat) (f : Op → Op) : State :=
  { s with ops := s.ops.map fun o => if o.id == id then f o else o }

/-- A little-endian field of a list of bytes. -/
def fieldAt (bs : List Byte) (off n : Nat) : Nat := leNat ((bs.drop off).take n)

/-- A field written into a list of bytes. -/
def setField (bs : List Byte) (off n v : Nat) : List Byte :=
  bs.take off ++ leBytes n v ++ bs.drop (off + n)

/-- A free value is drawn: the count of draws advances. DESIGN CHOICE (log entry 4), safe for one run. -/
def State.draw (s : State) : State := { s with tick := s.tick + 1 }

/-- An MSI-X vector signalled. DEDUCED (log entry 49), safe. -/
def State.signal (s : State) (v : Nat) : State := { s with msix := v :: s.msix }

/-- A number that no group slot has. -/
def noGroup : Nat := 65536

/-- The number under which a group that has ended or is saved stands, which is no slot's. -/
def savedSlot (serial gid : Nat) : Nat := 65537 + 32 * serial + gid

/-- The slot of a group, wherever it stands (R335). -/
def State.realSlot (s : State) (gs : Nat) : Nat :=
  if gs < noGroup then gs
  else
    match s.team? ((gs - 65537) / 32) with
    | some t => t.home.getD ((gs - 65537) % 32) noGroup
    | none => noGroup

/-- The group that had a slot in a region, wherever it stands now (R335). -/
def State.groupOfRegion (s : State) (gs rg : Nat) : Option Group :=
  s.allGroups.find? fun g => s.realSlot g.gs == gs && decide (g.race.start ≤ rg) && decide (rg ≤ g.race.rg)

/-- The groups of a team that are neither ended nor saved. -/
def State.liveGroups (s : State) (serial : Nat) : List Group :=
  s.allGroups.filter fun g => g.team == serial && !g.ended

/-! Time (R6, R458, R463). -/

/-- Clocks up to a time, from trace entries latest first (R463): each a number, a time and a code. -/
def clocksTo : Nat → List (Nat × Nat × Nat) → Nat
  | _, [] => 0
  | t, (_, time, code) :: rest => (16 + code) * (t - time) / 40 + clocksTo (min t time) rest

/-- The cluster of a core. -/
def State.cluster (s : State) (c : Nat) : Cluster := sget Cluster.reset s.clusters c

/-- The clocks of a group slot's cluster up to a time (R6). -/
def State.clockAt (s : State) (gs t : Nat) : Nat :=
  let k := s.cluster (coreOf gs / 4)
  k.base + clocksTo t k.trace

/-- The clock count of the cluster of a group slot (R133). -/
def State.clock (s : State) (gs : Nat) : Nat := s.clockAt gs s.now

/-- The latest time to which time may pass: a frequency code takes effect at a 40 ns boundary within 20 µs of its request (R458). -/
def State.latest (s : State) (t : Nat) : Nat :=
  s.clusters.foldl (fun t c => match c.2.pending with | some (_, at') => min t ((at' + 20000) / 40 * 40) | none => t) t

/-- The time comes to a moment, if it has not passed, and no further than it may. -/
def State.reach (s : State) (t : Nat) : State := { s with now := max s.now (s.latest t) }

end Sys2Proof.Machine
end

