-- ==== Sys2Proof/Machine/Memory.lean ====
section
/-!
DEFINITION. Memory by physical key, poison, the address ranges, the translation tables and who may reach which byte (R314
to R319, R418 to R425, R429, R444, R464, R474).
-/
namespace Sys2Proof.Machine

/-- What a byte of memory that nothing has written reads as: SRAM is zeroed at bring-up (R469); for HBM4E, host and peer
memory the spec gives no contents, and the model takes 0 (DESIGN CHOICE, log entry 2: unsafe). -/
def blankByte : Byte := 0

/-- The memory is in its canonical form. -/
def Memory.wf (m : List Host.Cell) : Bool := swf blankByte m

/-- The first key of the SRAM space: the key of device offset x is 2^63 + x. -/
def sramBase : Nat := 2 ^ 63

/-- The key of an SRAM-space device offset (R315). -/
def sramKey (x : Nat) : Nat := sramBase + x

/-- The key lies in the SRAM space. -/
def isSram (key : Nat) : Bool := decide (sramBase ≤ key)

/-- The core whose slice holds an SRAM key (R315). -/
def sliceOf (key : Nat) : Nat := (key - sramBase) / 2 ^ 23

/-- A byte of memory. -/
def State.rdByte (s : State) (key : Nat) : Byte := sget blankByte s.memory key

/-- A byte of memory written. -/
def State.wrByte (s : State) (key : Nat) (b : Byte) : State := { s with memory := sset blankByte s.memory key b }

/-- Consecutive bytes. -/
def State.rdBytes (s : State) (key n : Nat) : List Byte := (List.range n).map fun i => s.rdByte (key + i)

/-- Consecutive bytes written. -/
def State.wrBytes (s : State) (key : Nat) : List Byte → State
  | [] => s
  | b :: bs => (s.wrByte key b).wrBytes (key + 1) bs

/-- A little-endian value of n bytes. -/
def State.rdNat (s : State) (key n : Nat) : Nat := leNat (s.rdBytes key n)

/-- A little-endian value of n bytes written. -/
def State.wrNat (s : State) (key n v : Nat) : State := s.wrBytes key (leBytes n v)

/-- The poison unit that holds a key: a 32-byte sector of memory, a 32-bit word of the SRAM space (R464). -/
def poisonUnit (key : Nat) : Nat := if isSram key then key / 4 * 4 else key / 32 * 32

/-- Some byte of the range is poisoned. -/
def State.poisoned (s : State) (key n : Nat) : Bool :=
  (List.range n).any fun i => s.poison.contains (poisonUnit (key + i))

/-- Poison of the units that a write covers whole is cleared (R464). -/
def State.clearPoison (s : State) (key n : Nat) : State :=
  { s with poison := s.poison.filter fun u => !(decide (key ≤ u) && decide (u + (if isSram u then 4 else 32) ≤ key + n)) }

/-- Die and stack readiness (R468). -/
def State.stackReady (s : State) (n : Nat) : Bool := s.ready.getLsbD n
def State.dieReady (s : State) (d : Nat) : Bool := s.ready.getLsbD (8 + d)
def State.portReady (s : State) (p : Nat) : Bool := s.ready.getLsbD (12 + p)

/-- The stack of a byte of this device's HBM4E (R314, R469). -/
def stackOf (pa : Nat) : Nat := pa / 256 % 8

/-- A byte of this device's HBM4E whose stack has failed (R469). -/
def State.stackFailed (s : State) (pa : Nat) : Bool := s.failed.getLsbD (stackOf pa)

/-- The key is a byte of this device's HBM4E whose stack has failed. -/
def State.stackDown (s : State) (key : Nat) : Bool := decide (key < 2 ^ 48) && s.stackFailed key

/-- The key is a byte of this device's HBM4E whose stack has not come up: an access there waits unaccepted (R469). -/
def State.stackWaits (s : State) (key : Nat) : Bool := decide (key < 2 ^ 48) && !s.stackReady (stackOf key)

/-- Why an access does not reach memory: a cause, whether system software can service it, and a physical address for ECC. -/
structure NoAccess where
  cause : Nat
  service : Bool
  pa : Nat
deriving DecidableEq, Repr

/-- What an address names for an access. -/
inductive Reach where
  /-- Memory at a physical key; whether its page is race-checked. -/
  | ok (key : Nat) (chk : Bool)
  /-- The team block, at a byte of it (R317). -/
  | block (off : Nat)
  /-- The bytes of a saved team of the grid (R319). -/
  | saved (team : Nat)
  | no (why : NoAccess)
deriving DecidableEq, Repr

/-- The access waits for a stack that is not up (R469). -/
def Reach.waits : Reach → Bool
  | .no why => why.cause == 0
  | _ => false

/-- PAGE, PERM and ECC, serviceable. -/
def pageFault : NoAccess := ⟨1, true, 0⟩
def permFault : NoAccess := ⟨2, true, 0⟩
/-- A PERM that system software cannot service (R181, R316, R418). -/
def permFinal : NoAccess := ⟨2, false, 0⟩

/-- What an access needs of its page (R423). -/
structure Need where
  rd : Bool
  wr : Bool
  fetch : Bool
deriving DecidableEq, Repr

def Need.load : Need := ⟨true, false, false⟩
def Need.store : Need := ⟨false, true, false⟩
def Need.both : Need := ⟨true, true, false⟩
def Need.code : Need := ⟨false, false, true⟩

/-- The page flags (R420) grant what is needed: bit 5 RD, bit 6 W, bit 7 X. -/
def Need.granted (n : Need) (flags : Nat) : Bool :=
  (!n.rd || flags / 32 % 2 == 1) && (!n.wr || flags / 64 % 2 == 1) && (!n.fetch || flags / 128 % 2 == 1)

/-- The size of a leaf at a level under a size code; none when the code does not fit the level (R420, R421). -/
def leafSize (level sz : Nat) : Option Nat :=
  match level, sz with
  | 0, 0 => some (2 ^ 12)
  | 0, 1 => some (2 ^ 16)
  | 1, 0 => some (2 ^ 21)
  | 1, 2 => some (2 ^ 28)
  | 2, 3 => some (2 ^ 32)
  | _, _ => none

/-- A walk's answer: a page's base, size and entry, or a fault. -/
inductive Walk where
  | page (base size entry : Nat)
  | no (why : NoAccess)
deriving DecidableEq, Repr

/-- A table's physical address lies in device or host memory (R419). -/
def tableOk (pa : Nat) : Bool := decide (pa < 384000000000) || decide (pa / 2 ^ 48 = 1)

/-- One level of a walk: its answer, or the table of the level below (R419, R420, R423). -/
def State.walkLevel (s : State) (va level table : Nat) : Except Walk Nat :=
  let key := table + 8 * (va / 2 ^ (12 + 9 * level) % 512)
  if !tableOk table then .error (.no permFault)
  else if s.stackDown key || s.poisoned key 8 then .error (.no ⟨3, true, key⟩)
  else if s.stackWaits key then .error (.no ⟨0, false, key⟩)
  else
    let e := s.rdNat key 8
    let pa := e / 2 ^ 12 % 2 ^ 40 * 2 ^ 12
    if e % 2 = 0 then .error (.no pageFault)
    else if e / 2 ^ 52 ≠ 0 ∨ e / 4 % 8 ≠ 0 then .error (.no permFault)
    else if e / 2 % 2 = 1 then
      match leafSize level (e / 512 % 8) with
      | some size => if pa % size = 0 then .error (.page pa size e) else .error (.no permFault)
      | none => .error (.no permFault)
    else .ok pa

/-- The walk from a table at a level (R419, R420, R423). -/
def State.walkFrom (s : State) (va : Nat) : Nat → Nat → Walk
  | 0, table => match s.walkLevel va 0 table with | .error w => w | .ok _ => .no permFault
  | n + 1, table => match s.walkLevel va (n + 1) table with | .error w => w | .ok next => s.walkFrom va n next

/-- The key of a physical address in the device's own registers and structures: this device's memory under its fabric index is its own
(R422, R474). -/
def State.deviceKey (s : State) (pa : Nat) : Nat :=
  if pa / 2 ^ 48 = 2 ∧ pa / 2 ^ 40 % 256 = s.mesh.toNat then pa % 2 ^ 40 else pa

/-- What such an address names, for n bytes of one structure (R422, R469, R474). -/
def State.recordReach (s : State) (pa n : Nat) : Reach :=
  let key := s.deviceKey pa
  if 384000000000 ≤ key ∧ key / 2 ^ 48 ≠ 1 ∧ (key / 2 ^ 48 ≠ 2 ∨ 143 < key / 2 ^ 40 % 256) then .no permFault
  else if s.stackDown key || s.poisoned key n then .no ⟨3, true, key⟩
  else if s.stackWaits key then .no ⟨0, false, key⟩
  else .ok key false

/-- A field of such a structure; one that cannot be read is a free value, for the spec gives none. DESIGN CHOICE (log entry 48), safe. -/
def State.recordNat (s : State) (pa n : Nat) : Nat :=
  match s.recordReach pa n with
  | .ok key _ => s.rdNat key n
  | _ => leNat ((List.range n).map fun i => Config.hidden s.tick (pa + i))

/-- A field of such a structure written, where it is memory; a write of part of a sector does not need what stood there. It waits for
its stack (R469). -/
def State.wrRecord (s : State) (pa n v : Nat) : State :=
  match s.recordReach pa 0 with
  | .ok key _ => s.wrNat key n v
  | .no why => if why.cause = 0 then { s with late := s.late ++ [.bytes pa (leBytes n v)] } else s
  | _ => s

/-- The context record of a context (R405), and its fields. -/
def State.ctxPa (s : State) (ctx : Nat) : Nat := s.ctxtab.toNat + 64 * ctx
def State.ctxField (s : State) (ctx off n : Nat) : Nat := s.recordNat (s.ctxPa ctx + off) n
def State.csbase (s : State) (ctx : Nat) : Nat := s.ctxField ctx 8 8

/-- The first virtual addresses of the SRAM space and of the team block (R316, R317). -/
def sramVa : Nat := 2 ^ 56
def blockVa : Nat := 2 ^ 56 + 2 ^ 31

/-- The walk of a context's tables for an address below the SRAM space: entries 256 to 511 of level 4 are never used (R418, R419). -/
def State.walk (s : State) (ctx va : Nat) : Walk :=
  if sramVa ≤ va then .no permFinal
  else
    match s.recordReach (s.ctxPa ctx) 8 with
    | .ok key _ => s.walkFrom va 4 (s.rdNat key 8)
    | .no why => .no why
    | _ => .no permFinal

/-- The tables below one that a walk goes through, by level, the last first (R419). -/
def State.tablesFrom (s : State) (va : Nat) : Nat → Nat → List (Nat × Nat)
  | 0, _ => []
  | n + 1, table =>
    let e := s.rdNat (table + 8 * (va / 2 ^ (12 + 9 * (n + 1)) % 512)) 8
    if tableOk table && e % 4 == 1 then
      let next := e / 2 ^ 12 % 2 ^ 40 * 2 ^ 12
      s.tablesFrom va n next ++ [(n, next)]
    else []

/-- The upper bits of an address that choose the table of a level. -/
def upperBits (level va : Nat) : Nat := va / 2 ^ (12 + 9 * (level + 1))

/-- A translation covers an address of a context, and an entry of a walk cache does. -/
def Translation.covers (t : Translation) (ctx va : Nat) : Bool :=
  t.ctx == ctx && decide (t.va ≤ va) && decide (va < t.va + t.size)
def TableEntry.covers (x : TableEntry) (ctx va : Nat) : Bool := x.ctx == ctx && x.upper == upperBits x.level va

/-- The core whose unit acts: that of the group or of the ray selected, or else the one that the event is about (R424). -/
def State.unitCore (s : State) : Nat := if s.live then coreOf s.me.gs else if s.rayLive then s.ray.core else s.unit

/-- The TLBs that serve a core: its own for data or for instructions, and its cluster's (R424). -/
def Translation.serves (t : Translation) (core : Nat) (fetch : Bool) : Bool :=
  t.cache == (if fetch then 256 + core else core) || t.cache == 512 + core / 4

/-- The cached translation that serves an address (R421, R424, R425): the one that stands first. -/
def State.cached? (s : State) (ctx va : Nat) (fetch : Bool := false) : Option Translation :=
  s.tlb.find? fun t => t.covers ctx va && t.serves s.unitCore fetch

/-- A walk sets out from the first table that the walk cache of the core's die holds for the address, and else from the root (R424). -/
def State.walkNow (s : State) (ctx va : Nat) : Walk :=
  match if va < sramVa then s.walks.find? fun x => x.covers ctx va && x.die == s.unitCore / 64 else none with
  | some x => s.walkFrom va x.level x.table
  | none => s.walk ctx va

/-- The page of an address: by a cached entry where one covers it, by a walk otherwise. -/
def State.page (s : State) (ctx va : Nat) (fetch : Bool := false) : Walk :=
  match s.cached? ctx va fetch with
  | some t => .page t.base t.size t.flags
  | none => s.walkNow ctx va

/-- The entries of a TLB: 64 and 32 of a core, 4,096 of a cluster (R424). -/
def tlbSize (cache : Nat) : Nat := if cache < 256 then 64 else if cache < 512 then 32 else 4096

/-- A list in which a cache holds at most so many entries: the last ones of it are left out. -/
def capTo {α : Type} (mine : α → Bool) (n : Nat) (l : List α) : List α :=
  let keep := (l.filter mine).length - n
  (l.reverse.foldl (fun (m : List α × Nat) x => if mine x && decide (0 < m.2) then (m.1, m.2 - 1) else (x :: m.1, m.2)) ([], keep)).1

/-- A translation put first into a TLB, and a table into the walk cache of a die, which holds 256 (R424). -/
def State.keepPage (s : State) (t : Translation) : State :=
  { s with tlb := capTo (fun x => x.cache == t.cache) (tlbSize t.cache) (t :: s.tlb.filter (· != t)) }
def State.keepTable (s : State) (x : TableEntry) : State :=
  { s with walks := capTo (fun y => y.die == x.die) 256 (x :: s.walks.filter (· != x)) }

/-- What a walk finds is kept by caches, where what they held already stays: its page in a TLB, and the tables that it went through, a
faulting one's too (R421, R424). -/
def State.keepWalk (s : State) (ctx va cache : Nat) (w : Walk) (tables : List (Nat × Nat)) : State :=
  let die := if cache < 512 then cache % 256 / 64 else (cache - 512) / 16
  let s := tables.reverse.foldl (fun (s : State) x =>
    s.keepTable { die := die, ctx := ctx, level := x.1, upper := upperBits x.1 va, table := x.2 }) s
  match w with
  | .page base size e => s.keepPage { cache := cache, ctx := ctx, va := va / size * size, size := size, base := base, flags := e % 4096 }
  | .no _ => s

/-- The table that a context's walk of an address sets out from, with the core's caches as they are. -/
def State.tablesNow (s : State) (ctx va : Nat) : List (Nat × Nat) :=
  match s.walks.find? fun x => x.covers ctx va && x.die == s.unitCore / 64 with
  | some x => s.tablesFrom va x.level x.table
  | none =>
    match s.recordReach (s.ctxPa ctx) 8 with
    | .ok key _ => s.tablesFrom va 4 (s.rdNat key 8)
    | _ => []

/-- What the caches do with what they hold for an address, which the spec leaves open: an entry is lost, or comes to stand first, or comes
into another TLB too (R421, R424). -/
def State.turnCaches (s : State) (ctx va n : Nat) : State :=
  let mine := s.tlb.filter fun t => t.covers ctx va
  let tables := s.walks.filter fun x => x.covers ctx va
  match n % 5, mine[n / 5 % mine.length]?, tables[n / 5 % tables.length]? with
  | 0, some t, _ => { s with tlb := s.tlb.erase t }
  | 1, some t, _ => { s with tlb := t :: s.tlb.erase t }
  | 2, some t, _ => s.keepPage { t with cache := n / 5 / mine.length % 576 }
  | 3, _, some x => { s with walks := s.walks.erase x }
  | 4, _, some x => { s with walks := x :: s.walks.erase x }
  | _, _, _ => s

/-- The translation caches at work on a page (R421, R424, R425): of one below the SRAM space, a walk's result comes into a TLB, its tables
into the walk cache of that die; the bits from 57 up, which no address of a page has, stand for what the caches do otherwise. DEDUCED
(log entry 44), safe. -/
def State.cachePage (s : State) (ctx va : Nat) : State :=
  let cache := Config.choice s.tick % 576
  let s := { s with unit := if cache < 512 then cache % 256 else 4 * (cache - 512) }
  if va < sramVa then s.draw.keepWalk ctx va cache (s.walkNow ctx va) (s.tablesNow ctx va)
  else if va < 2 ^ 57 then s
  else s.turnCaches ctx (va % 2 ^ 57) (va / 2 ^ 57 - 1)

/-- A device of the scale-up domain that the grid's routing table names: device, die, ports (R427, R429). -/
def State.routed (s : State) (grid dev : Nat) : List (Nat × Nat × Nat) :=
  match s.grid? grid with
  | some g => g.route.filter fun e => e.1 == dev
  | none => []

/-- No port is ready that leads to the peer device of a key under a grid's routes (R429). -/
def State.peerLost (s : State) (grid key : Nat) : Bool :=
  key / 2 ^ 48 == 2
  && !(s.routed grid (key / 2 ^ 40 % 256)).any fun e => (List.range 16).any fun p => Nat.testBit e.2.2 p && s.portReady p

/-- The physical address a page gives, decoded (R422, R429). Host and peer memory: DESIGN CHOICE (log entry 48), unsafe. -/
def State.physical (s : State) (grid pa : Nat) (chk : Bool) : Reach :=
  match pa / 2 ^ 48 with
  | 0 =>
    if 384000000000 ≤ pa then .no permFault
    else if s.stackFailed pa then .no ⟨3, true, pa⟩
    else .ok pa chk
  | 1 => .ok pa false
  | 2 =>
    let dev := pa / 2 ^ 40 % 256
    let routes := s.routed grid dev
    if routes.isEmpty ∨ 143 < dev then .no permFault
    else if dev = s.mesh.toNat then
      (if 384000000000 ≤ pa % 2 ^ 40 then .no permFault
       else if s.stackFailed (pa % 2 ^ 40) then .no ⟨3, true, pa % 2 ^ 40⟩
       else .ok (pa % 2 ^ 40) chk)
    else if s.peerLost grid pa then .no ⟨3, true, pa⟩
    else .ok pa false
  | _ => .no permFault

/-- The team's bytes are allocated: until it retires, and in a cluster launch until its four teams have (R118, R318). -/
def State.holdsBytes (s : State) (t : Team) : Bool :=
  !t.ended || (t.cluster.isSome
    && s.teams.any fun u => u.grid == t.grid && u.cluster.isSome && u.index / 4 == t.index / 4 && !u.ended)

/-- The team of a grid whose bytes hold an SRAM offset: a placed one, and where there is none a saved one (R318, R319). -/
def State.ownerOf (s : State) (grid x : Nat) : Option Team :=
  let here := fun (t : Team) => t.grid == grid && s.holdsBytes t && decide (t.tbase ≤ x) && decide (x < t.tbase + t.tbytes)
  match s.teams.find? fun t => here t && !t.saved with
  | some t => some t
  | none => s.teams.find? here

/-- Who may reach an SRAM-space device offset (R318, R319). -/
def State.sramReach (s : State) (grid x : Nat) : Reach :=
  match s.ownerOf grid x with
  | some t => if t.saved then .saved t.serial else .ok (sramKey x) true
  | none => .no permFinal

/-- An address lies in the context slots of a context, and where (R406). -/
def State.inSlots (s : State) (ctx va : Nat) : Bool :=
  decide (s.csbase ctx ≤ va) && decide (va < s.csbase ctx + 2 ^ 32)

/-- What a running handler may do in its own frame (R444): load any byte, store to the editable ones. -/
def handlerMay (frame va size : Nat) (wr : Bool) : Bool :=
  let off := va - frame
  decide (frame ≤ va) && decide (off + size ≤ 0xC000)
  && (!wr || (decide (0x10 ≤ off) && decide (off + size ≤ 0x2C)) || decide (0x500 ≤ off))

/-- What a program's address names: the three ranges of R418, the context slots apart (R406, R444). `frame` is the frame
of a running handler. The context slots are never race-checked (R334). -/
def State.resolve (s : State) (grid ctx : Nat) (frame : Option Nat) (need : Need) (va size : Nat) : Reach :=
  if 2 ^ 57 ≤ va then .no permFinal
  else if blockVa ≤ va then
    (if va < blockVa + 64 ∧ need = Need.load then .block (va - blockVa) else .no permFinal)
  else if sramVa ≤ va then (if need.fetch then .no permFinal else s.sramReach grid (va - sramVa))
  else if (s.recordReach (s.ctxPa ctx + 8) 8).waits then s.recordReach (s.ctxPa ctx + 8) 8
  else if s.inSlots ctx va && !(match frame with | some f => handlerMay f va size need.wr | none => false) then
    .no permFinal
  else
    match s.page ctx va need.fetch with
    | .no why => .no why
    | .page base psize e =>
      if need.granted (e % 4096) then s.physical grid (base + va % psize) (e / 256 % 2 == 1 && !s.inSlots ctx va)
      else .no permFault

/-- A device access for a grid to a context's own structures, in the three ranges of R418 and under that context's tables and the
grid's routes (R422, R474). -/
def State.deviceVa (s : State) (grid ctx va : Nat) (need : Need) : Option Nat :=
  if blockVa ≤ va then none
  else if sramVa ≤ va then (match s.sramReach grid (va - sramVa) with | .ok key _ => some key | _ => none)
  else
    match s.page ctx va with
    | .no _ => none
    | .page base psize e =>
      if need.granted (e % 4096) then
        match s.physical grid (base + va % psize) false with
        | .ok key _ => if s.stackWaits key then none else some key
        | _ => none
      else none

/-- The first byte of each part of a range that lies in one stack (R469). -/
def stackParts (va n : Nat) : List Nat :=
  if n = 0 then [] else (List.range ((va + n - 1) / 256 + 1 - va / 256)).map fun i => max va ((va / 256 + i) * 256)

/-- A device access to n bytes from a virtual address has to wait: for the stack of a byte, of a table, or of the context's record
(R469). -/
def State.deviceWaits (s : State) (grid ctx va n : Nat) : Bool :=
  (stackParts va n).any fun a =>
    decide (a < sramVa) &&
    match s.page ctx a with
    | .no why => why.cause == 0
    | .page base psize _ =>
      match s.physical grid (base + a % psize) false with
      | .ok key _ => s.stackWaits key
      | _ => false

/-- The physical address of a byte of a range that lies in a failed stack, or whose table does: an access there completes as an
uncorrectable error (R469). -/
def State.deviceFails (s : State) (grid ctx va n : Nat) : Option Nat :=
  (stackParts va n).findSome? fun a =>
    match s.page ctx a with
    | .no why => if s.stackDown why.pa && why.cause == 3 then some why.pa else none
    | .page base psize _ =>
      match s.physical grid (base + a % psize) false with
      | .no why => if s.stackDown why.pa && why.cause == 3 then some why.pa else none
      | _ => none

/-- Bytes at a virtual address of a context, as the device reads them; none when a byte cannot be read. -/
def State.deviceRead (s : State) (grid ctx va n : Nat) : Option (List Byte) :=
  (List.range n).mapM fun i =>
    match s.deviceVa grid ctx (va + i) Need.load with
    | some key => if s.poisoned key 1 then none else some (s.rdByte key)
    | none => none

/-- Bytes written from a key on within one page; poison of the units covered whole is cleared (R464). -/
def State.wrPage (s : State) (key : Nat) (bs : List Byte) : State :=
  { s.clearPoison key bs.length with memory := (s.wrBytes key bs).memory }

/-- Bytes written from a virtual address on, page by page, each translated as the run enters it; at most `n` pages. -/
def State.deviceRun (s : State) (grid ctx : Nat) : Nat → Nat → List Byte → Option State
  | 0, _, _ => some s
  | n + 1, va, bs =>
    if bs.isEmpty then some s
    else
      match s.deviceVa grid ctx va Need.store with
      | some key =>
        let here := 4096 - va % 4096
        (s.wrPage key (bs.take here)).deviceRun grid ctx n (va + here) (bs.drop here)
      | none => none

/-- Bytes at a virtual address of a context, as the device writes them; none when a byte cannot be written. -/
def State.deviceWrite (s : State) (grid ctx va : Nat) (bs : List Byte) : Option State :=
  match s.deviceVa grid ctx va Need.store with
  | some _ => s.deviceRun grid ctx (bs.length / 4096 + 2) va bs
  | none => none

/-- Parts written one after another, each from its virtual address; none when a byte cannot be written. -/
def State.writeParts (s : State) (grid ctx : Nat) : List (Nat × List Byte) → Option State
  | [] => some s
  | (va, bs) :: rest =>
    match s.deviceWrite grid ctx va bs with
    | some s => s.writeParts grid ctx rest
    | none => none

/-- Such a write has to wait (R469). -/
def State.partsWait (s : State) (grid ctx : Nat) (parts : List (Nat × List Byte)) : Bool :=
  parts.any fun p => s.deviceWaits grid ctx p.1 p.2.length

/-- The keys of consecutive bytes of a program's or an engine's range, or the first address that is not reached. The cause
0 says that the access waits unaccepted for its stack (R469). -/
def State.keys (s : State) (grid ctx : Nat) (need : Need) : Nat → Nat → Except (Nat × Reach) (List Nat)
  | _, 0 => .ok []
  | va, n + 1 =>
    match s.resolve grid ctx none need va 1 with
    | .ok key _ =>
      if s.stackWaits key then .error (va, .no ⟨0, false, key⟩)
      else (s.keys grid ctx need (va + 1) n).map (key :: ·)
    | r => .error (va, r)

/-- The bytes of a range as an engine reads them (R225, R464). -/
def State.engineRead (s : State) (grid ctx va n : Nat) : Except (Nat × Reach) (List Byte) :=
  match s.keys grid ctx Need.load va n with
  | .error e => .error e
  | .ok ks =>
    match ks.findIdx? fun k => s.poisoned k 1 with
    | some i => .error (va + i, .no ⟨3, true, ks.getD i 0⟩)
    | none => .ok (ks.map s.rdByte)

/-- The value of the team block's bytes for a team (R317). -/
def Team.block (t : Team) : List Byte :=
  let cl := match t.cluster with | some (c, _) => 2 * c + 1 | none => 0
  let bases := match t.cluster with | some (_, bs) => bs | none => [0xFFFFFFFF, 0xFFFFFFFF, 0xFFFFFFFF, 0xFFFFFFFF]
  leBytes 4 t.tbase ++ leBytes 4 t.tbytes ++ leBytes 4 cl ++ leBytes 4 0
    ++ (List.range 4).flatMap (fun i => leBytes 4 (bases.getD i 0xFFFFFFFF)) ++ List.replicate 32 0

/-- What an L1 may hold: device and host memory, not the SRAM space and not peer memory (R184, R314). -/
def cacheable (key : Nat) : Bool := decide (key < 2 ^ 49)

/-- The sectors of an L1 of 256 KiB (R1). -/
def l1Sectors : Nat := 8192

/-- A line of a core holds the whole of a range. -/
def Line.spans (ln : Line) (core key n : Nat) : Bool :=
  ln.core == core && decide (ln.pa ≤ key) && decide (key + n ≤ ln.pa + 32)

/-- L1 lines that hold a sector are updated where a store hits them (R184). -/
def State.updateL1 (s : State) (core key : Nat) (bs : List Byte) : State :=
  { s with l1 := s.l1.map fun ln =>
      if ln.spans core key bs.length then
        { ln with bytes := ln.bytes.take (key - ln.pa) ++ bs ++ ln.bytes.drop (key - ln.pa + bs.length) }
      else ln }

/-- L1 lines that an atomic of a group hits are not updated (R344), and do not serve that group again (R182). -/
def State.barL1 (s : State) (core gs key n : Nat) : State :=
  { s with l1 := s.l1.map fun ln => if ln.spans core key n then { ln with barred := gs :: ln.barred } else ln }

/-- The lines of a cache with the oldest of one core left out where they are too many. -/
def capLines (core cap : Nat) (ls : List Line) : List Line :=
  if ls.length ≤ cap then ls
  else
    let mine := ls.filter fun ln => ln.core == core
    if mine.length ≤ cap then ls
    else
      match mine.getLast? with
      | some old => ls.erase old
      | none => ls

/-- A sector filled into a core's L1 with the bytes that it returned (R184). -/
def State.fillL1 (s : State) (core key : Nat) (bs : List Byte) : State :=
  let base := key / 32 * 32
  { s with
    fills := s.fills + 1
    l1 := capLines core l1Sectors ({ core := core, pa := base, bytes := bs, fill := s.fills, ctx := 0, va := 0 } ::
      s.l1.filter fun ln => !(ln.core == core && ln.pa == base)) }

/-- A line of a core's L1 that a group may still be served from (R182, R184, R200). -/
def State.l1Line? (s : State) (core gs mark key : Nat) : Option Line :=
  if cacheable key then
    s.l1.find? fun ln => ln.core == core && ln.pa == key / 32 * 32 && decide (mark ≤ ln.fill) && !ln.barred.contains gs
  else none

end Sys2Proof.Machine
end

