-- ==== Sys2Proof/Machine/Race.lean ====
section
/-!
DEFINITION. The race detector (R334 to R340): regions, tags, the check and the update; and the conflicts of transactions
(R219), which are decided before the check.
-/
namespace Sys2Proof.Machine

/-- The empty tag (R336). -/
def Tag.empty : Tag :=
  { writer := none, bound := 0, boundScope := 0, rda := none, rdb := none, many := false,
    manyTeam := none, manyEpoch := 0 }

/-- The tag of the granule that holds a key. -/
def State.tag (s : State) (key : Nat) : Tag := sget Tag.empty s.tags (key / 32)

/-- A granule's tag written. -/
def State.setTag (s : State) (key : Nat) (t : Tag) : State := { s with tags := sset Tag.empty s.tags (key / 32) t }

/-- The granules that a range of bytes touches. -/
def granules (key n : Nat) : List Nat :=
  (List.range ((key + n - 1) / 32 + 1 - key / 32)).map fun i => (key / 32 + i) * 32

/-- A group lies, within a scope, with the group that had a slot in a region (R326): that group itself, its team, its cluster, its
die, the package, the fabric. -/
def State.shares (s : State) (scope : Nat) (h : Group) (gs rg : Nat) : Bool :=
  let me := s.realSlot h.gs
  match scope with
  | 0 => me == gs && decide (h.race.start ≤ rg)
  | 1 => (s.groupOfRegion gs rg).any fun g => g.team == h.team
  | 2 => me / 1024 == gs / 1024
  | 3 => me / 16384 == gs / 16384
  | _ => true

/-- A bound merged into a list, the larger kept (R337). -/
def mergeBound (m : List (Nat × Nat)) (gs b : Nat) : List (Nat × Nat) :=
  match lookup m gs with
  | some c => if c < b then insertKey m gs b else m
  | none => (gs, b) :: m

/-- A bound merged into a horizon table of 8 entries; a ninth drops the entry least recently raised and sets OVF (R337). -/
def RaceState.merge (r : RaceState) (gs b : Nat) : RaceState :=
  let m := mergeBound r.horizon gs b
  if 8 < m.length then { r with horizon := m.take 8, ovf := true } else { r with horizon := m }

/-- A whole table merged. -/
def RaceState.mergeAll (r : RaceState) (t : List (Nat × Nat)) : RaceState := t.foldl (fun r e => r.merge e.1 e.2) r

/-- A span of regions of a slot put into a set; spans that touch become one. -/
def Before.add (b : Before) (gs lo hi : Nat) : Before :=
  let touch := fun (e : Nat × Nat × Nat) => e.1 == gs && decide (lo ≤ e.2.2) && decide (e.2.1 ≤ hi)
  let near : Before := b.filter touch
  (gs, near.foldl (fun m e => min m e.2.1) lo, near.foldl (fun m e => max m e.2.2) hi) :: b.filter fun e => !touch e

/-- Two sets of spans together. -/
def Before.join (a b : Before) : Before := b.foldl (fun m e => Before.add m e.1 e.2.1 e.2.2) a

/-- A region of a slot lies in the set. -/
def Before.covers (b : Before) (gs rg : Nat) : Bool := b.any fun e => e.1 == gs && decide (e.2.1 ≤ rg) && decide (rg < e.2.2)

/-- What is ordered before the end of the group's region: its own regions too (R327). -/
def Group.past (g : Group) : Before := Before.add g.race.before g.gs g.race.start (g.race.rg + 1)

/-- What is ordered before the completion of a group's operation: the group's regions to its issue too (R326, R327). -/
def State.opPast (s : State) (o : Op) : Before :=
  match s.anyGroup? o.gs with
  | some g => Before.add o.before (s.realSlot o.gs) g.race.start (o.region + 1)
  | none => o.before

/-- The group's region ends (R335); the watchdog sees it (R443). -/
def Group.endRegion (g : Group) : Group :=
  { g with race := { g.race with rg := g.race.rg + 1 }, dogEnded := true, dogCount := 0 }

/-- A release ends the region, and later writes carry its bound (R335, R336). -/
def Group.releaseRegion (g : Group) (scope : Nat) : Group :=
  { g with
    race := { g.race with
      rg := g.race.rg + 1
      release := g.race.rg + 1
      releaseScope := scope
      releaseTable := g.race.horizon }
    dogEnded := true
    dogCount := 0 }

/-- A FENCE with release: the group's later atomic writes carry its edge too, whatever other releases come in between (R326). -/
def Group.fenceRegion (g : Group) (scope : Nat) : Group :=
  let t := g.releaseRegion scope
  { t with race := { t.race with fences := insertKey g.race.fences scope g.past } }

/-- The mark of a plain write among the atomic writes of a word: an ATOM that returns it reads none of them (R326). -/
def Release.plain : Release := { gs := 0, first := 0, bound := 0, scope := 7, edges := [] }

/-- An atomic write joins those of its word: it stands first, and in place of its group's earlier ones that carry no other edges. -/
def chainWrite (r : Release) (rs : List Release) : List Release :=
  r :: rs.filter fun x => x.scope != 7
    && !(x.gs == r.gs && x.first == r.first && x.edges.all fun e => r.edges.any fun f => f.1 == e.1)

/-- The atomic writes that an ATOM of a word reads: the one it returns, and those before it (R326). -/
def State.chain (s : State) (key : Nat) : List Release := sget [] s.syncs (key / 4)

/-- The 4-byte words of a range. -/
def wordsOf (key n : Nat) : List Nat := (List.range ((key + n - 1) / 4 + 1 - key / 4)).map fun i => key / 4 + i

/-- An atomic write performs on a range: later ATOMs of its words read it, with the release it carries (R326, R336). -/
def State.noteAtomic (s : State) (r : Release) (key n : Nat) : State :=
  { s with syncs := (wordsOf key n).foldl (fun m w => sset [] m w (chainWrite r (sget [] m w))) s.syncs }

/-- What the group's later writes carry of its latest release (R336). -/
def Group.lastRelease (g : Group) : Release :=
  { gs := g.gs, first := g.race.start, bound := g.race.release, scope := g.race.releaseScope, edges := g.race.fences
    table := g.race.releaseTable }

/-- What an atomic write that is a release itself carries (R336). -/
def Group.releaseAt (g : Group) (scope : Nat) : Release :=
  { gs := g.gs, first := g.race.start, bound := g.race.rg + 1, scope := scope, edges := (scope, g.past) :: g.race.fences
    table := g.race.horizon }

/-- What an acquire of a group at a scope takes up of a release (R326). -/
def State.takeEdges (s : State) (h : Group) (scope : Nat) (b : Before) (x : Release) : Before :=
  x.edges.foldl (fun b e =>
    if s.shares e.1 h x.gs x.first && s.shares scope h x.gs x.first then Before.join b e.2 else b) b

/-- A transaction commits: a commit before it that conflicts with its set is ordered before it, and it stands for later ones; what
it writes is read as atomic writes of die scope are (R218, R326). -/
def State.noteCommit (s : State) (gs : Nat) : State :=
  match s.anyGroup? gs with
  | none => s
  | some g =>
    let meets := fun (e : Nat × Bool) => ((sget [] s.commits (e.1 / 32)).filter fun x => x.1 || e.2).map (·.2)
    let before := (g.tx.set.flatMap meets).foldl (s.takeEdges g 3) g.race.before
    let g := { g with race := { g.race with before := before } }
    let r : Release := { g.releaseAt 3 with edges := [(3, g.past)] }
    let put := fun (m : Sparse (List (Bool × Release))) (e : Nat × Bool) =>
      sset [] m (e.1 / 32) ((e.2, r) :: (sget [] m (e.1 / 32)).filter fun x =>
        !(x.1 == e.2 && x.2.gs == r.gs && x.2.first == r.first))
    let s := (s.modGroup gs fun g => { g with race := { g.race with before := before } })
    let s := g.tx.stores.foldl (fun (s : State) kb => s.noteAtomic r kb.1 1) s
    { s with commits := g.tx.set.foldl put s.commits }

/-- A plain write performs at keys (R326). -/
def State.notePlain (s : State) (keys : List Nat) : State :=
  let put := fun (m : Sparse (List Release)) (w : Nat) =>
    match sget [] m w with
    | [] => m
    | rs => sset [] m w (Release.plain :: rs.filter fun x => x.scope != 7)
  { s with syncs := ((keys.map (· / 4)).eraseDups).foldl put s.syncs }

/-- The writer of a release has released since (R337). -/
def State.releasedSince (s : State) (x : Release) : Bool :=
  match s.groupOfRegion x.gs (x.bound - 1) with
  | some w => decide (x.bound < w.race.release)
  | none => decide (x.bound < sget 0 s.lastReleases (x.first * noGroup + x.gs))

/-- What an acquire takes up of one word that the group's ATOMs have read (R326, R337): of a read in the region that the acquire
ends, the write that the ATOM returned goes into the horizon table, with the writer's table at that release, which is lost once
its writer has released since; it and the earlier ones of the word go into what R326 orders before. An ATOM that returned a plain
write read no atomic one. -/
def State.takeRead (s : State) (h : Group) (scope region : Nat) (r : RaceState) (read : Nat × List Release) : RaceState :=
  match read.2 with
  | [] => r
  | x :: _ =>
    if x.scope = 7 then r
    else
      let r := { r with before := read.2.foldl (s.takeEdges h scope) r.before }
      if read.1 = region && decide (0 < x.bound) && s.shares x.scope h x.gs x.first then
        let r := r.merge x.gs x.bound
        if s.releasedSince x then { r with ovf := true } else r.mergeAll x.table
      else r

/-- A read that an acquire of wider scope may still take up (R326). -/
def State.readLeft (s : State) (h : Group) (scope : Nat) (read : Nat × List Release) : Bool :=
  (read.2.headD Release.plain).scope != 7
  && read.2.any fun x => x.edges.any fun e => s.shares e.1 h x.gs x.first && !s.shares scope h x.gs x.first

/-- An acquire takes up what the group's ATOMs have read, those of the region that it ends into the horizon table (R326, R337).
DEDUCED (log entry 23): unsafe for RACE traps in such programs. -/
def State.takeReads (s : State) (gs scope region : Nat) : State :=
  match s.anyGroup? gs with
  | none => s
  | some h =>
    let merged := h.race.reads.foldl (s.takeRead h scope region) h.race
    let left := h.race.reads.filter (s.readLeft h scope)
    s.modGroup gs fun g => { g with race := { merged with reads := left } }

/-- An entry is ordered before the checking group's access (R338). -/
def State.ordered (s : State) (h : Group) (e : Entry) : Bool :=
  (e.gs == h.gs && decide (h.race.start ≤ e.rg))
  || (match lookup h.race.cut e.gs with
      | some b =>
        decide (e.rg < b) && (s.groupOfRegion e.gs e.rg).any fun g =>
          g.team == h.team || (s.team? h.team).any fun t => t.cluster.isSome
            && (s.team? g.team).any fun u => u.grid == t.grid && u.index / 4 == t.index / 4
      | none => false)
  || (match lookup h.race.horizon e.gs with
      | some b => decide (e.rg < b)
      | none => false)

/-- How an access is race-checked: the group, whether it reads, writes, is atomic and at which scope, its region, and the release
bound and scope that a write of it carries (R336). -/
structure Checked where
  gs : Nat
  rd : Bool
  wr : Bool
  atomic : Bool
  scope : Nat
  region : Nat
  bound : Nat
  boundScope : Nat
deriving DecidableEq, Repr

/-- A plain access of a group in its current region. -/
def Group.plainChecked (g : Group) (wr : Bool) : Checked :=
  { gs := g.gs, rd := !wr, wr := wr, atomic := false, scope := 0, region := g.race.rg, bound := g.race.release
    boundScope := g.race.releaseScope }

/-- The entry, ordered or not, lets the access by (R338): both scopes include the group and the one that had the slot in the
entry's region. -/
def State.clear (s : State) (h : Group) (c : Checked) (e : Entry) : Bool :=
  s.ordered h e
  || (c.atomic && e.atomic && s.shares c.scope h e.gs e.rg && s.shares e.scope h e.gs e.rg)

/-- The check of one granule: a conflicting entry with whether it is the writer's, and the misses to count (R338, R340). The readers of
a granule that is marked MANY are missed with the mark, as step 4 of R340's table has it; where the mark is one of the group's team of
an earlier epoch, they are checked. An entry that R326 orders before the access is never
reported (R340). DEDUCED (log entry 23), unsafe. -/
def State.checkGranule (s : State) (h : Group) (c : Checked) (key : Nat) : Option (Entry × Bool) × Nat × Nat :=
  let t := s.tag key
  let epoch := match s.team? h.team with | some tm => tm.epoch | none => 0
  let manyMiss := c.wr && t.many && !(t.manyTeam == some h.team && decide (t.manyEpoch < epoch))
  let cands := (t.writer.toList.map (·, true))
    ++ (if c.wr && !manyMiss then (t.rda.toList ++ t.rdb.toList).map (·, false) else [])
  let bad := cands.filter fun e => !s.clear h c e.1
  let miss := bad.filter fun e => h.race.ovf || decide (e.1.time < h.race.cutTime)
  let hit := bad.filter fun e => !(h.race.ovf || decide (e.1.time < h.race.cutTime))
    && !Before.covers h.race.before e.1.gs e.1.rg
  (hit.head?, if manyMiss then 1 else 0, miss.length)

/-- The check of every granule of a list (R338): the first conflict with its granule, and the misses. -/
def State.checkAll (s : State) (h : Group) (c : Checked) : List Nat → Option (Nat × Entry × Bool) × Nat × Nat
  | [] => (none, 0, 0)
  | k :: ks =>
    let r := s.checkGranule h c k
    let rest := s.checkAll h c ks
    ((match r.1 with | some e => some (k, e) | none => rest.1), r.2.1 + rest.2.1, r.2.2 + rest.2.2)

/-- The race record of a conflict that an access of a lane on a path has with an entry, the writer's or a reader's (R454). The address
of a granule of the SRAM space is written as the program forms it, for which the spec gives no form. DEDUCED (log entry 24): unsafe for
GRAN outside the SRAM space. -/
def raceRecord (c : Checked) (path lane addr gran : Nat) (e : Entry) (writer : Bool) : List Byte :=
  let b := fun (p : Bool) (n : Nat) => if p then 2 ^ n else 0
  let granule := if isSram gran then gran - sramBase + sramVa else gran
  leBytes 4 (c.gs + b c.wr 20 + b c.atomic 21 + path * 2 ^ 22) ++ leBytes 4 lane ++ leBytes 8 addr ++ leBytes 8 granule
    ++ leBytes 8 c.region ++ leBytes 4 (e.gs + b writer 16 + b e.atomic 17 + e.scope * 2 ^ 18) ++ leBytes 4 0
    ++ leBytes 8 e.rg ++ leBytes 8 e.time ++ leBytes 8 0

/-- The counts of RACEMISS raised, saturating at 0xFFFF (R32, R340). -/
def State.countMisses (s : State) (gs many ovf : Nat) : State :=
  s.modGroup gs fun g =>
    { g with missMany := min 0xFFFF (g.missMany + many), missOvf := min 0xFFFF (g.missOvf + ovf) }

/-- The tag after a write: the writer entry, readers cleared (R336, R338). -/
def State.tagWrite (s : State) (c : Checked) (key : Nat) : State :=
  let e : Entry := { gs := c.gs, rg := c.region, atomic := c.atomic, scope := c.scope, time := s.now }
  s.setTag key
    { writer := some e, bound := c.bound, boundScope := c.boundScope
      rda := none, rdb := none, many := false, manyTeam := none, manyEpoch := 0 }

/-- The tag after a read (R338). -/
def State.tagRead (s : State) (h : Group) (c : Checked) (key : Nat) : State :=
  let t := s.tag key
  let e : Entry := { gs := c.gs, rg := c.region, atomic := c.atomic, scope := c.scope, time := s.now }
  let mine : Option Entry → Bool := fun o => match o with | some x => x.gs == c.gs | none => false
  if mine t.rda then s.setTag key { t with rda := some e }
  else if mine t.rdb then s.setTag key { t with rdb := some e }
  else if t.rda.isNone then s.setTag key { t with rda := some e }
  else if t.rdb.isNone then s.setTag key { t with rdb := some e }
  else
    let ofTeam : Entry → Bool := fun x => (s.groupOfRegion x.gs x.rg).any fun g => g.team == h.team
    let all := if t.many then t.manyTeam == some h.team
      else (t.rda.toList ++ t.rdb.toList).all ofTeam
    let epoch := match s.team? h.team with | some tm => tm.epoch | none => 0
    s.setTag key { t with many := true, manyEpoch := epoch, manyTeam := if all then some h.team else none }

/-- The tags of every granule of a range updated after an access performs (R338). -/
def State.tagAccess (s : State) (c : Checked) (key n : Nat) : State :=
  match s.anyGroup? c.gs with
  | none => s
  | some h =>
    (granules key n).foldl (fun s k => if c.wr then s.tagWrite c k else s.tagRead h c k) s

/-- The abort code of a transaction (R219): cause, set size, word offset from TXB. -/
def abortCode (cause size : Nat) (pc t : Addr) : Word :=
  BitVec.ofNat 32 (cause % 256 + size % 256 * 256 + (pc - t).toNat / 4 % 65536 * 65536)

/-- The fragment that runs a group's transaction: it has lanes of the TXB's EXEC. -/
def Group.inTransaction (g : Group) (f : Frag) : Bool := !f.held && f.exec &&& g.tx.exec != 0

/-- A transaction aborted in its group: held stores discarded, the code written, MR and EXEC as TXB kept them, PC after
the TXB, where the fragment runs though it had reached its join (R216, R219). -/
def State.abortTx (s : State) (gs cause : Nat) : State :=
  match s.anyGroup? gs with
  | none => s
  | some g =>
    match g.tx.st, g.frags.find? g.inTransaction with
    | .opened t, some f =>
      let waits := f.st == .joined || f.st == .heldOverflow
      let s := s.modGroup gs fun g =>
        { g with
          tx := { g.tx with st := .aborted t, set := [], stores := [] }
          joins := if waits then g.joins.map fun (j : Join) => { j with wait := j.wait &&& ~~~f.exec } else g.joins
          sregs := sset 0 g.sregs g.tx.sd (abortCode cause g.tx.set.length f.pc t) }
      let s := s.modFrag gs f.id fun f =>
        { f with mr := g.tx.mr, exec := g.tx.exec, pc := t + 4, wins := [], st := if waits then .running else f.st }
      { s with ops := s.ops.filter fun o => !(o.gs == gs && decide (g.tx.firstOp ≤ o.id)) }
    | _, _ => s

/-- Open transactions of other groups that an access conflicts with are aborted: it writes a granule of their set, or
reads one they have written (R219). DEDUCED (log entry 20), unsafe for claims that a transaction aborts. -/
def State.abortConflicts (s : State) (gs : Nat) (wr : Bool) (key n : Nat) : State :=
  let gr := granules key n
  s.allGroups.foldl (fun s g =>
    if g.gs != gs && g.tx.set.any (fun e => gr.contains e.1 && (wr || e.2)) then s.abortTx g.gs 1 else s) s

end Sys2Proof.Machine
end

