-- ==== Sys2Proof/Machine/Perform.lean ====
section
/-!
DEFINITION. How an access of the LS path performs (R182 to R188, R190, R191, R195 to R197, R321): the atomics, the write
to memory that wakes watches, the return of load data to registers, completion and counting out.
-/
namespace Sys2Proof.Machine

/-- The team-block key space: the block of team t starts at 2^62 + 64 t (R317). -/
def blockKey (team off : Nat) : Nat := 2 ^ 62 + 64 * team + off

/-- The key names a team block. -/
def isBlock (key : Nat) : Bool := decide (2 ^ 62 ≤ key) && decide (key < 2 ^ 63)

/-- A value of the team block (R317); 0 where the team is gone. -/
def State.blockNat (s : State) (key n : Nat) : Nat :=
  match s.team? ((key - 2 ^ 62) / 64) with
  | some t => leNat ((t.block.drop (key % 64)).take n)
  | none => 0

/-- The word that a watch looks at (R214, R317). -/
def State.watched (s : State) (key : Nat) : Nat := if isBlock key then s.blockNat key 4 else s.rdNat key 4

/-- A fragment that waits in MWAIT wakes where its word now differs from the awaited value (R214). The word is the one that the group's
watch names by then, and a watch that is disarmed meanwhile wakes nothing: DESIGN CHOICE (log entry 22), unsafe. -/
def State.wakes (s : State) (touched : Nat → Bool) (g : Group) (f : Frag) : Frag :=
  match g.watch, f.watching with
  | some (_, w), some c => if !g.saved && touched w && s.watched w != c then { f with woken := true } else f
  | _, _ => f

/-- Every fragment looked at for a wake. -/
def State.wakeBy (s : State) (touched : Nat → Bool) : State :=
  let wake := s.wakes touched
  { s with
    fr := wake s.me s.fr
    me := { s.me with frags := s.me.frags.map (wake s.me) }
    groups := s.groups.map fun (g : Group) => { g with frags := g.frags.map (wake g) } }

/-- A write performs at its home: the bytes stand, whole units lose their poison, and a watch whose word now differs from
the awaited value wakes its fragments (R214, R321, R464). -/
def State.storeBytes (s : State) (key : Nat) (bs : List Byte) : State :=
  ((s.wrBytes key bs).clearPoison key bs.length).wakeBy fun w => decide (w < key + bs.length) && decide (key < w + 4)

/-- Every watch looks at its word again: after a write that the device or the host makes (R214), and at a restore (R215). -/
def State.wakeAll (s : State) : State := s.wakeBy fun _ => true

/-- A little-endian value stored. -/
def State.storeNat (s : State) (key n v : Nat) : State := s.storeBytes key (leBytes n v)

/-- Bytes written at their keys by one write: the units that it covers whole lose their poison, and watches look (R214, R464). -/
def State.storeAt (s : State) (bs : List (Nat × Byte)) : State :=
  let ks := bs.map (·.1)
  let t := bs.foldl (fun (s : State) kb => s.wrByte kb.1 kb.2) s
  let whole := fun (u : Nat) => (List.range (if isSram u then 4 else 32)).all fun i => ks.contains (u + i)
  { t with poison := t.poison.filter fun u => !whole u }.wakeBy fun w => (List.range 4).any fun i => ks.contains (w + i)

/-- An engine's access to keys aborts the transactions it conflicts with, its own group's included (R219). -/
def State.engineMeets (s : State) (wr : Bool) (ks : List Nat) : State :=
  (ks.map (· / 32 * 32)).eraseDups.foldl (fun (s : State) k => s.abortConflicts noGroup wr k 1) s

/-- The fields of the atomic control word (R193). -/
def atomOp (c : Nat) : Nat := c % 16
def atomType (c : Nat) : Nat := c / 16 % 4
def atomOrd (c : Nat) : Nat := c / 128 % 4
def atomScope (c : Nat) : Nat := c / 512 % 8

/-- The control word is one that R193 and R194 allow; RED has no acquire (R196). -/
def atomAllowed (isRed : Bool) (c : Nat) : Bool :=
  let op := atomOp c
  let ty := atomType c
  decide (c / 4096 = 0) && decide (c / 64 % 2 = 0) && decide (atomScope c < 6) && decide (op < 11)
  && (if op ≤ 1 then true else if op ≤ 7 then ty != 2 else ty == 2)
  && !(isRed && atomOrd c % 2 == 1)

/-- The bytes of an atomic access (R195). -/
def atomSize (c : Nat) : Nat := if atomType c = 3 then 8 else 4

/-- The new memory value of an atomic (R194): m the prior value, v the operand, v2 the second operand of CAS. -/
def atomNew (c m v v2 : Nat) : Nat :=
  let w := 8 * atomSize c
  let t : IntType := ⟨atomType c == 1, w⟩
  match atomOp c with
  | 0 => v
  | 1 => if m = v then v2 else m
  | 2 => (m + v) % 2 ^ w
  | 3 => if t.value v < t.value m then v else m
  | 4 => if t.value m < t.value v then v else m
  | 5 => m &&& v
  | 6 => m ||| v
  | 7 => m ^^^ v
  | 8 => add32 m v
  | 9 => f32.minMax false m v
  | _ => f32.minMax true m v

/-- The instruction is an atomic, and whether it is RED. -/
def atomicKind : Instr → Option Bool
  | .atom .. => some false
  | .red .. => some true
  | _ => none

/-- The instruction writes memory at its accesses. -/
def writesMemory : Instr → Bool
  | .sst .. | .stB8 .. | .stB16 .. | .stB32 .. | .stB64 .. | .stB128 .. | .stt .. | .atom .. | .red .. => true
  | _ => false

/-- The instruction reads memory at its accesses. -/
def readsMemory : Instr → Bool
  | .sld .. | .ldU8 .. | .ldS8 .. | .ldU16 .. | .ldS16 .. | .ldB32 .. | .ldB64 .. | .ldB128 .. | .ldt .. | .atom ..
  | .red .. => true
  | _ => false

/-- The operation is a MARM. -/
def Op.arms (o : Op) : Bool := match o.cap.instr with | .marm .. => true | _ => false

/-- The access's tag carries a release (R336). -/
def Op.releases (o : Op) : Bool := (atomicKind o.cap.instr).isSome && decide (2 ≤ atomOrd (o.nums.headD 0))

/-- How an operation's accesses are checked (R322, R338). A MARM counts as an atomic read of the widest scope, so that it meets no
conflict with the atomic writes of the word it watches. DESIGN CHOICE (log entry 22), unsafe. -/
def Op.checked (o : Op) : Checked :=
  let c := o.nums.headD 0
  let atomic := (atomicKind o.cap.instr).isSome
  { gs := o.gs, rd := readsMemory o.cap.instr || o.arms, wr := writesMemory o.cap.instr
    atomic := atomic || o.arms, scope := if o.arms then 5 else if atomic then atomScope c else 0, region := o.region
    bound := o.rel.bound, boundScope := o.rel.scope }

/-- How the accesses of an engine operation are checked and tagged: as its group's, of the region at its issue (R224, R355). -/
def Op.engineChecked (o : Op) (wr : Bool) : Checked :=
  { gs := o.gs, rd := !wr, wr := wr, atomic := false, scope := 0, region := o.region, bound := o.rel.bound
    boundScope := o.rel.scope }

/-- The operation is an acquire atomic (R197). -/
def Op.acquires (o : Op) : Bool := (atomicKind o.cap.instr) == some false && decide (atomOrd (o.nums.headD 0) % 2 = 1)

/-- The registers a piece of loaded data goes to in its lane, planes zero except where LDT loads them (R185, R186, R190). -/
def loadWords (d : Nat) (i : Instr) (lane part data : Nat) : List (Nat × Word) :=
  let plain := fun r v => plainWords d r lane (BitVec.ofNat 32 v)
  match i with
  | .ldU8 r _ _ _ => plain r (data % 2 ^ 8)
  | .ldS8 r _ _ _ => plainWords d r lane ((BitVec.ofNat 8 data).signExtend 32)
  | .ldU16 r _ _ _ => plain r (data % 2 ^ 16)
  | .ldS16 r _ _ _ => plainWords d r lane ((BitVec.ofNat 16 data).signExtend 32)
  | .ldB32 r _ _ _ => plain r data
  | .ldB64 r _ _ _ => plain r (data % 2 ^ 32) ++ plain (r + 1) (data / 2 ^ 32)
  | .ldB128 r _ _ _ => (List.range 4).flatMap fun j => plain (r + j) (data / 2 ^ (32 * j) % 2 ^ 32)
  | .ldt r _ _ _ => [(vkey r part lane, BitVec.ofNat 32 data)]
  | _ => []

/-- The flag that a plane loaded by LDT sets in its lane under MR.TE (R12, R73), where no SPRW to TFLAGS has come since (R33). -/
def loadFlag (o : Op) (r : Returned) : BitVec 3 :=
  if mrTe o.cap.mr && r.part != 0 && !o.cap.noFlags.getLsbD r.lane && badPlane (mrEt o.cap.mr) (BitVec.ofNat 32 r.data)
  then flagTZ else 0

/-- Loaded data written to its destination (R186, R188, R142). -/
def State.deliver (s : State) (o : Op) (r : Returned) : State :=
  s.modGroup o.gs fun g =>
    match o.cap.instr with
    | .ldt .. => (g.putVs (loadWords g.tangents o.cap.instr r.lane r.part r.data)).addFlags r.lane (loadFlag o r)
    | .sld d _ _ _ => { g with sregs := sset 0 g.sregs d (BitVec.ofNat 32 r.data) }
    | .atom d _ _ _ =>
      let ws := if atomSize (o.nums.headD 0) = 8 then
          plainWords g.tangents d r.lane (BitVec.ofNat 32 r.data)
            ++ plainWords g.tangents (d + 1) r.lane (BitVec.ofNat 32 (r.data / 2 ^ 32))
        else plainWords g.tangents d r.lane (BitVec.ofNat 32 r.data)
      g.putVs ws
    | i => g.putVs (loadWords g.tangents i r.lane r.part r.data)

/-- The die of a group slot (R335). -/
def dieOf (gs : Nat) : Nat := gs / 16384

/-- A write touches a range. -/
def Recent.touches (w : Recent) (key n : Nat) : Bool := w.cells.any fun c => decide (key ≤ c.1) && decide (c.1 < key + n)

/-- A write that a group need not see yet: it comes from another die, its window of package scope has not passed, the group's die has
not seen it, and nothing orders it before the group's access (R199, R326, R330, R332). -/
def State.hides (s : State) (h : Group) (w : Recent) : Bool :=
  decide (s.now < w.til) && dieOf w.gs != dieOf h.gs && !w.seen.contains (dieOf h.gs) && !Before.covers h.race.before w.gs w.rg

/-- The writes that a die has seen once it sees those that a test picks: each with every earlier one of one of its bytes, latest
first (R330). -/
def seenWith (die : Nat) (pick : Recent → Bool) : List Nat → List Recent → List Recent
  | _, [] => []
  | keys, w :: rest =>
    if pick w || w.cells.any fun c => keys.contains c.1 then
      { w with seen := if w.seen.contains die then w.seen else die :: w.seen } :: seenWith die pick (w.cells.map (·.1) ++ keys) rest
    else w :: seenWith die pick keys rest

/-- What stood before the earliest of some writes in a byte that they wrote. -/
def oldByte (late : List Recent) (key : Nat) : Option Byte := (late.filterMap fun w => lookup w.cells key).getLast?

/-- The bytes of a range as a group's load finds them at their home, and the state in which its die has seen what it found: of the
latest writes that the group need not see, as many as a free value says are not visible yet (R330, R332, R342). -/
def State.seenBytes (s : State) (h : Group) (key n : Nat) : List Byte × State :=
  let near := s.recent.filter (·.touches key n)
  let late := near.takeWhile (s.hides h)
  let late := late.take (Config.choice (s.tick + 1) % (late.length + 1))
  let seen := fun (w : Recent) => w.touches key n && !late.any fun x => x.seq == w.seq
  ((List.range n).map fun i => (oldByte late (key + i)).getD (s.rdByte (key + i)),
   if near.isEmpty then s else { s with recent := seenWith (dieOf h.gs) seen [] s.recent })

/-- A die has seen every write to a range: an access of it has performed at the home (R330). -/
def State.seeAll (s : State) (gs key n : Nat) : State :=
  if s.recent.any (·.touches key n) then { s with recent := seenWith (dieOf gs) (·.touches key n) [] s.recent } else s

/-- What a load of a group sees at a key, and the L1 after it (R184, R314): a line of the core's L1, or, where there is none or the
free choice says that it has been evicted, the home's sector, which then fills the L1. DEDUCED (log entry 19), safe. -/
def State.loadView (s : State) (gs key n : Nat) : Nat × State :=
  let h := (s.anyGroup? gs).getD Group.empty
  let core := coreOf gs
  if isSram key then (s.rdNat key n, s)
  else
    match if Config.choice s.tick % 2 = 0 then s.l1Line? core gs h.l1Mark key else none with
    | some ln => (leNat ((ln.bytes.drop (key - ln.pa)).take n), s.draw)
    | none =>
      let base := key / 32 * 32
      let (bs, t) := s.seenBytes h base 32
      let t := t.draw.draw
      (leNat ((bs.drop (key - base)).take n), if cacheable key then t.fillL1 core key bs else t)

/-- What a load inside a transaction sees: the held stores over memory (R217, R333). -/
def State.txView (s : State) (h : Group) (x : Access) : Nat :=
  let held := fun i => (h.tx.stores.find? fun kb => kb.1 == x.pa + i).map (·.2)
  leNat ((List.range x.size).map fun i => (held i).getD (s.rdByte (x.pa + i)))

/-- The fields whose words an operation stores or gives to its atomics: vector registers, and of a field of 112 to 127 a scalar (R16,
R187, R195). -/
def valueFields (i : Instr) (c : Nat) : List Nat :=
  let wide := (if atomType c = 3 then 2 else 1) * (if atomOp c = 1 then 2 else 1)
  match i with
  | .stB8 d _ _ _ | .stB16 d _ _ _ | .stB32 d _ _ _ => [d]
  | .stB64 d _ _ _ => [d, d + 1]
  | .stB128 d _ _ _ => [d, d + 1, d + 2, d + 3]
  | .atom d _ _ _ | .red d _ _ _ => (List.range wide).map (d + ·)
  | _ => []

/-- The vector registers among them. -/
def valueRegs (i : Instr) (c : Nat) : List Nat := (valueFields i c).filter (· < 112)

/-- A captured register lane has a plane whose word is not 0. That a plane of −0 counts as one is a DESIGN CHOICE (log entry 13),
unsafe. -/
def Captured.hasTangent (c : Captured) (d r lane : Nat) : Bool :=
  (List.range d).any fun k => (lookup c.vec (vkey r (k + 1) lane)).getD 0 != 0

/-- TD set in a lane whose stored value carries a tangent, unless an SPRW that follows has given the lane's flags (R33, R73, R187,
R195). -/
def State.flagStored (s : State) (gs lane : Nat) (c : Captured) (word : Nat) : State :=
  s.modGroup gs fun g =>
    if !c.noFlags.getLsbD lane && (valueRegs c.instr word).any fun r => c.hasTangent g.tangents r lane then g.addFlags lane flagTD else g

/-- TFLAGS of a lane of a group: a store or an atomic that has been issued and has yet to perform in the lane counts, so that it is no
matter when it does; one that is withdrawn has set nothing (R33, R73, R180). -/
def State.flagsOf (s : State) (g : Group) (lane : Nat) : BitVec 3 :=
  let sets := fun (o : Op) => o.gs == g.gs && writesMemory o.cap.instr && !o.cap.noFlags.getLsbD lane
    && (o.todo.any fun x => x.lane == lane)
    && (valueRegs o.cap.instr (o.nums.headD 0)).any fun r => o.cap.hasTangent g.tangents r lane
  g.flags lane ||| if s.ops.any sets then flagTD else 0

/-- What is given to a group's TFLAGS in some lanes stands: its operations in progress set no flag there any more (R33). -/
def State.flagsGiven (s : State) (gs : Nat) (lanes : Mask) : State :=
  { s with ops := s.ops.map fun (o : Op) =>
      if o.gs == gs then { o with cap := { o.cap with noFlags := o.cap.noFlags ||| lanes } } else o }

/-- The time at which a write to a key is sent: when it performs, where the home is the core's own slice, and else at a free moment
between the time from which on nothing has held it back and then (R199, R332). DEDUCED (log entry 19), safe. -/
def State.sentAt (s : State) (gs key since : Nat) : Nat :=
  if isSram key && sliceOf key == coreOf gs then s.now
  else min s.now since + Config.elapsed s.tick % (s.now - since + 1)

/-- A time of sending noted under a number, the latest kept; times whose fabric window has passed say nothing more (R199). -/
def noteSent (now : Nat) (m : List (Nat × Nat)) (num t : Nat) : List (Nat × Nat) :=
  let live := m.filter fun e => decide (now < (e.2 / 2048 + 2) * 2048)
  insertKey live num (max t ((lookup live num).getD 0))

/-- A write is about to perform: what stood at its keys outside the SRAM space stays in sight of other dies until its window, all of it
or none (R199, R332). -/
def State.noteRecent (s : State) (gs rg t : Nat) (keys : List Nat) : State :=
  let keys := keys.filter fun k => !isSram k && !isBlock k
  if keys.isEmpty || decide ((t / 256 + 2) * 256 ≤ s.now) then s
  else
    { s with recent :=
        { seq := s.tick, cells := keys.map fun k => (k, s.rdByte k), gs := s.realSlot gs, rg := rg, til := (t / 256 + 2) * 256 } ::
        s.recent.filter fun w => decide (s.now < w.til) }

/-- A write of a group to keys is about to perform as one: when it was sent is noted, for releases and for those that may not see it
yet. -/
def State.noteWrite (s : State) (gs num rg since : Nat) (keys : List Nat) : State :=
  let t := s.sentAt gs (keys.headD 0) since
  (s.noteRecent gs rg t keys).draw.modGroup gs fun g => { g with sent := noteSent s.now g.sent num t }

/-- The keys of a range. -/
def keysFrom (key n : Nat) : List Nat := (List.range n).map (key + ·)

/-- The region in which a group's Cruiser work counts: that of its latest CRUZ in progress, or else the group's own (R329). -/
def State.rayRegion (s : State) (gs : Nat) : Nat :=
  match (s.ops.filter fun o => o.gs == gs && o.path == some .cr && !o.complete).getLast? with
  | some o => o.region
  | none => match s.anyGroup? gs with | some g => g.race.rg | none => 0

/-- Bytes an engine writes at their keys for a group, in a region: they abort transactions they meet, hide the atomic writes before
them, and are noted with their path for XFENCE (R202, R219, R224, R326), and for those that may not see them yet (R332). -/
def State.engineStore (s : State) (gs path rg since : Nat) (ks : List Nat) (bs : List Byte) : State :=
  if ks.isEmpty then s
  else
    let s := s.engineMeets true ks
    let t := s.sentAt gs (ks.headD 0) since
    let s := (s.noteRecent gs rg t ks).draw.notePlain ks
    (s.storeAt (ks.zip bs)).modGroup gs fun g =>
      { g with pathSent := insertKey g.pathSent path (max t ((lookup g.pathSent path).getD 0)) }

/-- Bytes written at a range by a group's Cruiser work, all or none (R202, R225). -/
def State.engineWrite (s : State) (gs grid ctx va : Nat) (bs : List Byte) : Except (Nat × Reach) State :=
  match s.keys grid ctx Need.store va bs.length with
  | .error e => .error e
  | .ok ks => .ok (s.engineStore gs Path.cr.num (s.rayRegion gs) s.now ks bs)

/-- Loaded data stands ready: at its registers where it comes from the SRAM space, and until its sector returns where not (R188). -/
def State.arrived (s : State) (o : Op) (x : Access) (v : Nat) : State :=
  let r : Returned := { lane := x.lane, part := x.part, sector := x.pa / 32, data := v }
  if isSram x.pa || isBlock x.pa then s.deliver o r else s.modOp o.id fun o => { o with got := r :: o.got }

/-- What words of pending Canopy operations held before their lane steps, by the word's key: an LS access may still find them so
(R356). -/
def State.oldWords (s : State) (key : Nat) : List Nat :=
  (s.ops.filter fun o => o.path == some .cn && !o.complete).flatMap fun o =>
    (o.got.filter fun r => r.sector == key / 4 * 4).map (·.data)

/-- The value of an access of SRAM, where each word that a pending Canopy operation has written is found, by a free choice, as it stands
or as it stood before the step (R356). -/
def State.mixedWords (s : State) (x : Access) (v : Nat) : Nat × State :=
  if (List.range x.size).any fun i => !(s.oldWords (x.pa + i)).isEmpty then
    let byte := fun (i : Nat) =>
      let key := x.pa + i
      let ws := s.rdNat (key / 4 * 4) 4 :: s.oldWords key
      BitVec.ofNat 8 (ws.getD (Config.choice (s.tick + key / 4 - x.pa / 4) % ws.length) 0 / 2 ^ (8 * (key % 4)))
    (leNat ((List.range x.size).map byte), { s with tick := s.tick + 4 })
  else (v, s)

/-- A store to words hides what pending Canopy operations have left of them (R356). -/
def State.hideOld (s : State) (key n : Nat) : State :=
  if s.ops.any fun o => o.path == some .cn && !o.got.isEmpty then
    { s with ops := s.ops.map fun o =>
        if o.path == some .cn then { o with got := o.got.filter fun r => !(decide (r.sector < key + n) && decide (key < r.sector + 4)) }
        else o }
  else s

/-- A range shares a byte with the slot or the log area of a lane step that a Canopy operation has yet to perform. -/
def State.meetsSlot (s : State) (key n : Nat) : Bool :=
  s.ops.any fun o =>
    o.path == some .cn && !o.complete && o.todo.any fun y =>
      let log := sramBase + s.rdNat (y.pa + 0x20) 4
      (decide (key < y.pa + 256) && decide (y.pa < key + n))
      || (decide (key < log + 48 * s.rdNat (y.pa + 0x26) 2) && decide (log < key + n))

/-- The keys whose bytes an access finds as they stand; of an 8-byte atomic, a word that it has found as it stood before a step is one
that the step has written over, so that it writes nothing there (R356). DEDUCED (log entry 27), unsafe. -/
def Access.writes (x : Access) (found now new : Nat) : List (Nat × Byte) :=
  let word := fun (v i : Nat) => v / 2 ^ (32 * (i / 4)) % 2 ^ 32
  ((List.range x.size).filter fun i => x.size ≤ 4 || word found i == word now i).map fun i =>
    (x.pa + i, BitVec.ofNat 8 (new / 2 ^ (8 * i)))

/-- The words of a store. -/
def Access.split (x : Access) : List Access :=
  (List.range (x.size / 4)).map fun i =>
    { x with va := x.va + 4 * i, pa := x.pa + 4 * i, size := 4, data := x.data / 2 ^ (32 * i) % 2 ^ 32 }

/-- A store over several words of a slot or log that a lane step is about to use performs word by word, each in its own time (R356). -/
def State.splits? (s : State) (o : Op) (x : Access) : Bool :=
  writesMemory o.cap.instr && (atomicKind o.cap.instr).isNone && isSram x.pa && decide (4 < x.size) && s.meetsSlot x.pa x.size
def State.splitStore (s : State) (o : Op) (x : Access) : State :=
  s.modOp o.id fun o => { o with begun := true, todo := o.todo.flatMap fun a => if a == x then x.split else [a] }

/-- A store updates the L1 lines that it hits, and is then on its way to its home (R184). -/
def State.hitsL1 (s : State) (o : Op) (x : Access) : Bool :=
  writesMemory o.cap.instr && (atomicKind o.cap.instr).isNone && !x.early && cacheable x.pa
  && s.l1.any fun ln => ln.spans (coreOf o.gs) x.pa x.size
def State.goEarly (s : State) (o : Op) (x : Access) : State :=
  (s.modOp o.id fun o => { o with begun := true, todo := o.todo.map fun a => if a == x then { x with early := true } else a }).updateL1
    (coreOf o.gs) x.pa (leBytes x.size x.data)

/-- The tag of an access that has performed (R338). -/
def State.tagOf (s : State) (o : Op) (x : Access) : State := if x.chk then s.tagAccess o.checked x.pa x.size else s

/-- When the group's latest write before an operation was sent (R199). -/
def Group.lastSent (g : Group) (id : Nat) : Option Nat :=
  (g.sent.filter fun e => decide (e.1 ≤ id)).foldl (fun (m : Option Nat) e =>
    match m with | none => some e.2 | some t => some (max t e.2)) none

/-- When the window N + 2 of the group's latest write before an operation begins (R199). -/
def State.windowStart (s : State) (gs scope id : Nat) : Option Nat :=
  if scope < 4 then none
  else
    let w := if scope = 4 then 256 else 2048
    (((s.anyGroup? gs).getD Group.empty).lastSent id).map fun t => (t / w + 2) * w

/-- One access of an operation performs (R321): a load's data stands ready, a store's bytes stand, an atomic does its
one indivisible step, a MARM arms the watch. -/
def State.performAccess (s : State) (o : Op) (x : Access) : State :=
  let core := coreOf o.gs
  let s := s.modOp o.id fun o => { o with begun := true, todo := o.todo.erase x }
  let s := s.abortConflicts o.gs (writesMemory o.cap.instr) x.pa x.size
  match o.cap.instr with
  | .marm .. =>
    -- a later MARM with no active lane has taken its place (R213)
    let s := if o.nums.isEmpty then s.modGroup o.gs fun g => { g with watch := some (x.va, x.pa) } else s
    s.tagOf o x
  | i =>
    let since := max o.leaves (if o.releases then (s.windowStart o.gs (atomScope (o.nums.headD 0)) o.id).getD 0 else 0)
    let noted := fun (s : State) => s.noteWrite o.gs (o.id + 1) o.region since (keysFrom x.pa x.size)
    match atomicKind i with
    | some isRed =>
      let c := o.nums.headD 0
      let now := s.rdNat x.pa x.size
      let (m, s) := if isSram x.pa && x.size == 8 then s.mixedWords x now else (now, s)
      let new := atomNew c m (x.data % 2 ^ 64) (x.data / 2 ^ 64)
      let read := (wordsOf x.pa x.size).map fun w => (o.region, s.chain (4 * w))
      let s := if isRed then s
        else s.modGroup o.gs fun g => { g with race := { g.race with reads := read ++ g.race.reads } }
      let s := ((noted (s.seeAll o.gs x.pa x.size)).storeAt (x.writes m now new)).hideOld x.pa x.size
      let s := (s.barL1 core o.gs x.pa x.size).noteAtomic o.rel x.pa x.size
      let s := (s.tagOf o x).flagStored o.gs x.lane o.cap c
      if isRed then s
      else s.deliver o { lane := x.lane, part := x.part, sector := x.pa / 32, data := m }
    | none =>
      if writesMemory i then
        let bs := leBytes x.size x.data
        let s := ((noted s).storeNat x.pa x.size x.data).hideOld x.pa x.size
        let s := if x.early then s.barL1 core o.gs x.pa x.size else s.updateL1 core x.pa bs
        ((s.notePlain (keysFrom x.pa x.size)).tagOf o x).flagStored o.gs x.lane o.cap 0
      else if isBlock x.pa then s.arrived o x (s.blockNat x.pa x.size)
      else
        let (v, s) := s.loadView o.gs x.pa x.size
        let (v, s) := if isSram x.pa then s.mixedWords x v else (v, s)
        (s.tagOf o x).arrived o x v

/-- Every lane and word of the operation has performed and its data has arrived. -/
def Op.finished (o : Op) : Bool := o.todo.isEmpty && o.got.isEmpty

/-- Operations complete at the head of their path's order are counted out (R183, R221). -/
def countOut : List Op → List Op → List Op
  | _, [] => []
  | earlier, o :: rest =>
    if o.complete && !(earlier.any fun e => e.gs == o.gs && e.path == o.path) then countOut earlier rest
    else o :: countOut (earlier ++ [o]) rest

/-- An acquire at cluster scope or wider retires the group's older L1 lines (R200). -/
def State.retireL1 (s : State) (gs scope : Nat) : State :=
  if 2 ≤ scope then s.modGroup gs fun g => { g with l1Mark := s.fills } else s

/-- An LS load or ATOM that the group issued before an operation has not completed (R200). -/
def State.loadsBefore (s : State) (gs id : Nat) : Bool :=
  s.ops.any fun o => o.gs == gs && o.path == some .ls && readsMemory o.cap.instr && !o.complete
    && atomicKind o.cap.instr != some true && decide (o.id < id)

/-- From now on nothing holds the accesses of a group's operations back that a test picks (R199, R332). -/
def State.letGo (s : State) (gs : Nat) (held : Op → Bool) : State :=
  { s with ops := s.ops.map fun (o : Op) => if o.gs == gs && !o.begun && held o then { o with leaves := s.now } else o }

/-- Acquires whose earlier loads have now completed take up what the group's ATOMs have read, retire L1 lines, and hold nothing back any
more (R200, R337). -/
def State.settleHolds (s : State) (gs : Nat) : State :=
  match s.anyGroup? gs with
  | none => s
  | some g =>
    let past := g.holds.filter fun h => !s.loadsBefore gs h.1
    if past.isEmpty then s
    else
      past.foldl (fun (s : State) h => (s.takeReads gs h.2.1 h.2.2).retireL1 gs h.2.1)
        ((s.modGroup gs fun g => { g with holds := g.holds.filter fun h => !past.contains h }).letGo gs fun o =>
          past.any fun h => decide (h.1 ≤ o.id))

/-- An acquire at a scope, which ends a region, holds back the operations from a number on until earlier loads and ATOMs have completed
(R200, R337). -/
def State.acquireHold (s : State) (gs scope region id : Nat) : State :=
  if s.loadsBefore gs id then s.modGroup gs fun g => { g with holds := (id, scope, region) :: g.holds }
  else (s.takeReads gs scope region).retireL1 gs scope

/-- An operation of a number is held back by an acquire of its group (R197, R200). -/
def State.heldBack (s : State) (gs id : Nat) : Bool :=
  (s.ops.any fun e => e.gs == gs && decide (e.id < id) && e.acquires && !e.complete)
  || ((s.anyGroup? gs).getD Group.empty).holds.any fun h => decide (h.1 ≤ id)

/-- The operation completes: an atomic's acquire takes effect (R197, R337), acquires that waited for it do, releases behind it go on,
and what can be counted out is. -/
def State.completeOp (s : State) (id : Nat) : State :=
  match s.op? id with
  | none => s
  | some o =>
    let s := s.modOp id fun o => { o with complete := true }
    let s := s.letGo o.gs fun e => decide (o.id < e.id) && (o.acquires || e.releases)
    let s := if o.acquires then s.acquireHold o.gs (atomScope (o.nums.headD 0)) o.region id else s
    let s := (s.settleHolds o.gs).modGroup o.gs fun g => { g with quiet := s.now }
    { s with ops := countOut [] s.ops }

/-- The operation completes if nothing of it is left. -/
def State.settleOp (s : State) (id : Nat) : State :=
  match s.op? id with
  | some o => if o.finished && !o.complete then s.completeOp id else s
  | none => s

/-- The data of one sector returns to the registers of the lanes it holds (R188). -/
def State.returnSector (s : State) (o : Op) (sector : Nat) : State :=
  let s := (o.got.filter fun r => r.sector == sector).foldl (fun s r => s.deliver o r) s
  (s.modOp o.id fun o => { o with got := o.got.filter fun r => r.sector != sector }).settleOp o.id

/-- Two accesses share a byte. -/
def Access.overlaps (a b : Access) : Bool := decide (a.pa < b.pa + b.size) && decide (b.pa < a.pa + a.size)

/-- The beat of eight lanes in which a lane of an operation is served (R189). -/
def Op.beat (o : Op) (lane : Nat) : Nat := ((lanesOf o.cap.act).findIdx (· == lane)) / 8

/-- Two accesses to one slice fall in beats of which the first goes before the second (R189, R320). -/
def Op.beatsBefore (o : Op) (a b : Access) : Bool :=
  isSram a.pa && isSram b.pa && sliceOf a.pa == sliceOf b.pa && decide (o.beat a.lane < o.beat b.lane)

/-- The accesses of an operation that may perform next: in one operation and one group, accesses to common bytes perform
in order, a slice serves eight lanes after another, and MARMs arm in order (R182, R189, R195, R213). -/
def State.readyAccesses (s : State) (o : Op) : List Access :=
  let earlier := (s.ops.takeWhile fun e => e.id != o.id).filter fun e => e.gs == o.gs && e.path == o.path
  let rec go : List Access → List Access → List Access
    | _, [] => []
    | before, x :: rest =>
      if before.any (fun y => x.overlaps y || o.beatsBefore y x) || earlier.any (fun e => e.todo.any x.overlaps) then
        go (before ++ [x]) rest
      else x :: go (before ++ [x]) rest
  if o.arms && earlier.any (fun e => e.arms && !e.todo.isEmpty) then [] else go [] o.todo

/-- A release of the group's earlier LS accesses at a scope has completed (R199, R332): nothing earlier is pending, and at
package or fabric scope the window N + 2 of its last write has begun. -/
def State.released (s : State) (gs scope before : Nat) : Bool :=
  let pending := s.ops.any fun o => o.gs == gs && o.path == some .ls && decide (o.id < before) && !o.complete
  !pending && (match s.windowStart gs scope before with | some t => decide (t ≤ s.now) | none => true)

/-- An LS operation may perform an access now: it is not suspended, no earlier acquire of the group holds it back, and a release
atomic has its release before its first lane (R197, R200). -/
def State.mayPerform (s : State) (o : Op) : Bool :=
  o.suspended.isNone && !o.todo.isEmpty && !s.heldBack o.gs o.id
  && (!o.releases || o.begun || s.released o.gs (atomScope (o.nums.headD 0)) o.id)

/-- The whole of an operation performed and returned at once, access by access: what a trap's entry does with operations
that have begun (R447). -/
def State.finishLs (s : State) (id : Nat) : State :=
  match s.op? id with
  | none => s
  | some o =>
    let s := o.todo.foldl (fun s x => s.performAccess o x) s
    match s.op? id with
    | none => s
    | some o =>
      let s := o.got.foldl (fun s r => s.deliver o r) s
      (s.modOp id fun o => { o with got := [] }).settleOp id

end Sys2Proof.Machine
end

