-- ==== Sys2Proof/Machine/Budget.lean ====
section
/-!
DEFINITION. Budgets: what a request is charged and whether it is accepted in the current window of 1 µs (R402 to R404).
-/
namespace Sys2Proof.Machine

/-- The window of the present. -/
def State.budgetWindow (s : State) : Nat := s.now / 1000

/-- The kinds of charge: memory bytes, Skidder bytes, and the array clocks of class c. -/
def chargeMem : Nat := 0
def chargeSkid : Nat := 1
def chargeKerf (c : Nat) : Nat := 2 + c % 4

/-- The key of a charge. -/
def chargeKey (budget kind place : Nat) : Nat := (budget * 8 + kind) * 256 + place

/-- What has been charged in the current window. -/
def State.charged (s : State) (budget kind place : Nat) : Nat :=
  if s.window = s.budgetWindow then sget 0 s.charges (chargeKey budget kind place) else 0

/-- A charge made where the limit allows it, 0 meaning none; none where the request waits (R403). -/
def State.accept (s : State) (budget kind place limit amount : Nat) : Option State :=
  let c := s.charged budget kind place
  if limit = 0 ∨ c + amount ≤ limit then
    let old := if s.window = s.budgetWindow then s.charges else []
    some { s with window := s.budgetWindow, charges := sset 0 old (chargeKey budget kind place) (c + amount) }
  else none

/-- A budget record. -/
def State.budget (s : State) (b : Nat) : Budget := sget Budget.reset s.budgets b

/-- The budget that a group's team charges (R402). -/
def State.budgetOf (s : State) (gs : Nat) : Nat :=
  match (s.anyGroup? gs).bind fun g => s.team? g.team with
  | some t => t.budget
  | none => 0

/-- The bytes that accesses charge: 32 for each sector outside the core's own slice (R403). -/
def memoryCharge (core : Nat) (keys : List Nat) : Nat :=
  32 * ((keys.filter fun k => !(isSram k && sliceOf k == core) && !isBlock k).map (· / 32)).eraseDups.length

/-- Accesses of a unit of a core accepted by the memory-side arbiters of its cluster, under a budget; a stack that is not up accepts
none (R469). -/
def State.acceptFrom (s : State) (budget core : Nat) (keys : List Nat) : Option State :=
  if keys.any s.stackWaits then none
  else s.accept budget chargeMem (core / 4) (s.budget budget).memb.toNat (memoryCharge core keys)

/-- Accesses of a group accepted. -/
def State.acceptMem (s : State) (gs : Nat) (keys : List Nat) : Option State := s.acceptFrom (s.budgetOf gs) (coreOf gs) keys

end Sys2Proof.Machine
end

