-- ==== Sys2Proof/Machine/Faults.lean ====
section
/-!
DEFINITION. Faults that need service: the ring, parking lanes, suspending an engine operation, and what an answer does to
a parked fragment or an operation (R30, R181, R225, R301 to R303, R319, R450 to R453); the error registers (R467, R469).
-/
namespace Sys2Proof.Machine

/-! ## Errors that are reported (R467) -/

/-- A count that saturates. -/
def bumpWord (w : Word) : Word := if w = BitVec.allOnes 32 then w else w + 1

/-- A vector that is signalled at most once in each window of 1 µs. DEDUCED (log entry 42): unsafe for claims that no vector
comes. -/
def State.signalOnce (s : State) (v : Nat) (last : Option Nat) : State :=
  if last = some (s.now / 1000) then s else s.signal v

/-- An uncorrectable error is reported: vector 6 at most once in each window of 1 µs (R467). -/
def State.reportError (s : State) (addr src : Nat) : State :=
  let last := s.ueSignalled
  let s := { s with
    uecnt := bumpWord s.uecnt, ueaddr := BitVec.ofNat 64 addr, uesrc := BitVec.ofNat 32 src
    ueSignalled := some (s.now / 1000) }
  s.signalOnce 6 last

/-- An access comes to a stop: where it reached a byte of a failed stack it has completed as an uncorrectable error of HBM4E (R467,
R469). -/
def State.countFailed (s : State) (why : NoAccess) : State :=
  if why.cause == 3 && s.stackDown why.pa then s.reportError why.pa 1 else s

/-- An access of the device's own to a range that is not reached. -/
def State.countFailedVa (s : State) (grid ctx va n : Nat) : State :=
  match s.deviceFails grid ctx va n with
  | some pa => s.reportError pa 1
  | none => s

/-! ## Parked fragments and suspended operations -/

/-- What a captured instruction holds of a register of a lane, and of a scalar. -/
def Captured.lane (c : Captured) (r plane l : Nat) : Nat := ((lookup c.vec (vkey r plane l)).getD 0).toNat
def Captured.scalar (c : Captured) (k : Nat) : Nat := ((lookup c.scal k).getD 0).toNat
/-- A scalar of a d field or of a field of 112 to 127: of a register that stands twice the later word (R446). -/
def Captured.scalarD (c : Captured) (k : Nat) : Nat := ((lookup c.scal.reverse k).getD 0).toNat
/-- The value word of a source field. -/
def Captured.source (c : Captured) (x l : Nat) : Nat := if x < 112 then c.lane x 0 l else c.scalarD (x - 112)

/-- The address that an instruction formed for a lane, with the registers that it took for it and a handle's place; of a texture sample,
which reads several places, none. -/
def Captured.laneAddress (c : Captured) (l : Nat) : Option Nat × List Nat × Option Nat :=
  let pair := fun a => c.lane a 0 l + c.lane (a + 1) 0 l * 2 ^ 32
  let base := fun k => c.scalar k + c.scalar (k + 1) * 2 ^ 32
  let off := fun (a : Nat) => if a = 127 then 0 else c.source a l
  let ls := fun a k => ((BitVec.ofNat 64 (base k) + (BitVec.ofNat 32 (off a)).signExtend 64).toNat, [a], .none)
  match c.instr with
  | .ldU8 _ a k _ | .ldS8 _ a k _ | .ldU16 _ a k _ | .ldS16 _ a k _ | .ldB32 _ a k _ | .ldB64 _ a k _ | .ldB128 _ a k _
  | .stB8 _ a k _ | .stB16 _ a k _ | .stB32 _ a k _ | .stB64 _ a k _ | .stB128 _ a k _ | .ldt _ a k _ | .stt _ a k _
  | .atom _ a k _ | .red _ a k _ | .marm a k _ => let x := ls a k; (some x.1, x.2)
  | .sld _ a k _ | .sst _ a k _ => (some ((base k + 4 * a) % 2 ^ 64), [], .none)
  | .cruz _ h a _ | .rcmt h a _ => (some (pair a), [a, a + 1], some h)
  | .crget _ a _ => (some (pair a), [a, a + 1], .none)
  | .skidg _ h a _ => (some ((base h + pair a) % 2 ^ 64), [a, a + 1], some h)
  | .cnop _ a _ | .cnad _ a _ | .cnrd _ a _ | .cncl _ a _ => (some (sramVa + c.lane a 0 l), [a], .none)
  | .cnaj _ h a _ => (some (sramVa + c.lane a 0 l), [a], some h)
  | .tex _ h _ _ => (.none, [], some h)
  | _ => (.none, [], .none)

/-- The fault ring is in use: EN is set and LOG2N lies in 6 to 16 (R451). DEDUCED (log entry 42), unsafe. -/
def State.ringInUse (s : State) : Bool := s.fqEn && decide (6 ≤ s.fqLog.toNat) && decide (s.fqLog.toNat ≤ 16)

/-- The lanes that others of the group hold: a fragment, another parked fragment, a deferred subset, a record's CLR. They are not in the
CLR of a parked fragment that goes on (R30, R107, R301). -/
def Group.lanesBeside (g : Group) (p : Parked) : Mask :=
  (g.frags.foldl (fun m x => m ||| x.exec ||| x.clr) 0)
  ||| ((g.parked.filter fun q => q.cap.act != p.cap.act).foldl (fun m q => m ||| q.cap.act) 0)
  ||| (g.joins.foldl (fun m j => m ||| j.clr ||| (if j.spill then j.dmask else 0)) 0)

/-- A parked fragment becomes a running one that performs its instruction again, or that traps in place (R302, R303). -/
def State.unpark (s : State) (gs : Nat) (p : Parked) (fail : Bool) : State :=
  match s.anyGroup? gs with
  | none => s
  | some g =>
    let f : Frag :=
      { Frag.empty with
        id := g.nextFrag
        pc := p.next
        mr := p.mr
        exec := p.cap.act
        clr := p.clr &&& ~~~g.lanesBeside p
        links := p.links
        st := .running
        held := g.handler.isSome && !p.inHandler
        last := g.issued
        inject := { p.cap with trapping := fail } :: p.rest
        traps := if fail then [{ cause := p.cause, sub := 0, addr := p.addr }] else [] }
    s.modGroup gs fun g =>
      { g with
        nextFrag := g.nextFrag + 1
        parked := g.parked.filter fun q => q.cap.act != p.cap.act
        frags := f :: g.frags }

/-- The parked fragments of a group whose lanes are these take their answer (R450). -/
def State.answerParked (s : State) (gs : Nat) (mask : Mask) (fail : Bool) : State :=
  match s.anyGroup? gs with
  | none => s
  | some g =>
    match g.parked.find? fun p => p.cap.act == mask with
    | some p => s.unpark gs p fail
    | none => s

/-- A trap that the group's fragment takes at its next instruction boundary (R225, R442). DEDUCED (log entry 18): unsafe for the
moment of the trap. -/
def State.holdTrap (s : State) (gs frag : Nat) (t : HeldTrap) : State :=
  match s.anyGroup? gs with
  | none => s
  | some g =>
    -- the issuing fragment where it still exists, otherwise one of the group
    let id := if g.frags.any fun f => f.id == frag then frag else (g.frags.headD Frag.empty).id
    s.modFrag gs id fun f => { f with traps := f.traps ++ [t] }

/-- An engine operation stops: it is counted out with no arrival, and its group traps (R225). The frame of such a trap without bit 17
holds the operation's word (R444). -/
def State.endOp (s : State) (o : Op) (cause sub addr word : Nat) (race : List Byte := []) : State :=
  let s := s.modOp o.id fun o => { o with todo := [], got := [], holds := [], suspended := none, waits := none, complete := true }
  let s := { s with ops := countOut [] s.ops }
  s.holdTrap o.gs o.frag { cause := cause, sub := sub, addr := addr, word := word, race := race }

/-- An engine operation that cannot go on stops, and its trap names its path (R225). -/
def State.failOp (s : State) (id cause addr : Nat) : State :=
  match s.op? id with
  | none => s
  | some o => s.endOp o cause (2 ^ 17 + match o.path with | some p => p.num | none => 0) addr 0

/-- A suspended operation continues (R225). -/
def State.resumeOp (s : State) (id : Nat) : State := s.modOp id fun o => { o with suspended := none, waits := none }

/-- What an answer does to the party of a record of KIND 0 or 1 (R453). -/
def State.answerFault (s : State) (f : FaultRec) (fail : Bool) : State :=
  match f.kind with
  | 0 => s.answerParked f.gs f.mask fail
  | 1 => if fail then s.failOp f.target f.cause f.vaddr else s.resumeOp f.target
  | _ => s

/-- A fault that needs service is detected: it joins the ring's order, or is answered at once as with FAIL while the ring
is not in use (R452). -/
def State.postFault (s : State) (f : FaultRec) : State :=
  let s := if f.cause = 3 then s.countFailed ⟨3, true, f.paddr⟩ else s
  if s.ringInUse then { s with faults := s.faults ++ [f] } else s.answerFault f true

/-- The record of a fault of a group's lanes or operation. -/
def State.faultRec (s : State) (kind gs : Nat) (why : NoAccess) (va target : Nat) (mask : Mask) (wr : Bool)
    (path : Nat) : FaultRec :=
  let g := (s.anyGroup? gs).getD Group.empty
  { kind := kind, cause := why.cause, ctx := g.ctx, grid := g.gridId.toNat, gs := gs, vaddr := va
    paddr := if why.cause = 3 then why.pa else 0, record := 0
    info := (if wr then 1 else 0) + 2 * path, time := s.now, target := target, mask := mask, seq := none }

/-- The address of the lowest lane that a captured instruction acts for. -/
def Captured.lowestAddress (c : Captured) : Option Nat := (lanesOf c.act).head?.bind fun l => (c.laneAddress l).1

/-- Lanes of the issuing fragment are parked with their instruction as captured; the fragment and its CLR lose them (R30,
R301). The fault record and the entry carry the lowest faulting address and its cause, the parked fragment the lowest parked lane's
address, where the instruction forms one for each lane (R449). DEDUCED (log entry 15), unsafe. -/
def State.parkLanes (s : State) (cap : Captured) (mask : Mask) (why : NoAccess) (va : Nat) (wr : Bool)
    (path : Nat) (waits : Option Nat) : State :=
  let left := s.fr.exec &&& ~~~mask
  let p : Parked :=
    { cap := { cap with act := mask }, frag := s.fr.id, mr := s.fr.mr, clr := s.fr.clr, links := s.fr.links
      cause := why.cause, addr := (({ cap with act := mask } : Captured).lowestAddress).getD va, wr := wr, seq := none
      waits := waits
      rest := s.fr.inject, next := s.fr.pc, inHandler := s.me.handler.isSome }
  let s := { s with
    me := { s.me with
      parked := s.me.parked ++ [p]
      handler := s.me.handler.map fun (h : Handler) => { h with heldLanes := h.heldLanes &&& ~~~mask } }
    fr := if left = 0 then { s.fr with exec := 0, clr := 0, st := .gone } else { s.fr with exec := left } }
  if waits.isSome then s
  else if why.service then s.postFault (s.faultRec 0 s.me.gs why va 0 mask wr path)
  else s.unpark s.me.gs { p with waits := none } true

/-- An engine operation meets a fault: it is suspended and the fault is posted, or it stops where no service can help
(R225). -/
def State.suspendOp (s : State) (o : Op) (why : NoAccess) (va : Nat) (wr : Bool) : State :=
  let path := match o.path with | some p => p.num | none => 0
  if why.service then
    let s := if s.ringInUse then s.modOp o.id fun o => { o with suspended := some none } else s
    s.postFault (s.faultRec 1 o.gs why va o.id 0 wr path)
  else s.failOp o.id why.cause va

end Sys2Proof.Machine
end

