-- ==== Sys2Proof/Machine/Copy.lean ====
section
/-!
DEFINITION. What every engine does when it performs: its reads and writes, a fault that suspends it, its completion; and the
Skidder's copy, piece by piece, with the arrival on a completion barrier (R209, R211, R219, R224, R225, R237, R238, R319).
-/
namespace Sys2Proof.Machine

/-- The grid and the context in which a group's operations access memory. -/
def State.placeOf (s : State) (gs : Nat) : Nat × Nat :=
  match s.anyGroup? gs with
  | some g => ((match s.team? g.team with | some t => t.grid | none => 0), g.ctx)
  | none => (0, 0)

/-- An operation cannot go on at an address (R225, R319): a fault suspends or ends it, a saved team's bytes suspend it until
that team is restored, and a stack that is not up keeps it waiting (R469). DEDUCED (log entry 25): unsafe for the state after
such a fault. -/
def State.stopOp (s : State) (o : Op) (at' : Nat × Reach) (wr : Bool) : State :=
  match at'.2 with
  | .no why => if why.cause = 0 then s else s.suspendOp o why at'.1 wr
  | .saved team => s.modOp o.id fun o => { o with suspended := some none, waits := some team }
  | _ => s.suspendOp o permFinal at'.1 wr

/-- The granules of a range that were not reached at an operation's issue. -/
def Op.lateGranules (o : Op) (wr : Bool) (va n : Nat) : List Nat :=
  ((granules va n).filter fun a => o.later.contains (a, wr)).map (max va)

/-- One such granule as the operation comes to it: tagged, and a miss counted, or the state in which the operation has stopped (R225,
R334, R339). Of a conflict that it meets there the spec says no more than that it is no matter of its issue: the operation stops, and
its group traps RACE at its next instruction boundary. DESIGN CHOICE (log entry 25), unsafe. -/
def State.checkLate (s : State) (o : Op) (wr : Bool) (a : Nat) : Except State State :=
  let (grid, ctx) := s.placeOf o.gs
  let c := o.engineChecked wr
  let path := match o.path with | some p => p.num | none => 0
  match s.resolve grid ctx none (if wr then Need.store else Need.load) a 1 with
  | .ok key true =>
    let h := (s.anyGroup? o.gs).getD Group.empty
    let r := s.checkAll h c [key / 32 * 32]
    match r.1 with
    | some (gran, e, writer) =>
      .error (s.endOp o 9 path a (encode o.cap.instr |>.getD 0) (raceRecord c path (firstLane o.cap.act) a gran e writer))
    | none => .ok ((s.countMisses o.gs r.2.1 r.2.2).tagAccess c key 1)
  | _ => .ok s

/-- The granules of an operation's next ranges that were not reached at its issue. -/
def State.checkAllLate (s : State) (o : Op) (ranges : List (Bool × Nat × Nat)) : Except State State :=
  if o.later.isEmpty then .ok s
  else (ranges.flatMap fun r => (o.lateGranules r.1 r.2.1 r.2.2).map fun a => (r.1, a)).foldlM
    (fun (s : State) x => s.checkLate o x.1 x.2) s

/-- Fields of a completion-barrier word (R209). -/
def cbPhase (w : Nat) : Nat := w % 2 ^ 16
def cbArrived (w : Nat) : Nat := w / 2 ^ 16 % 2 ^ 16
def cbExpect (w : Nat) : Nat := w / 2 ^ 32 % 2 ^ 16

/-- The word after an arrival (R211). -/
def cbArrive (w : Nat) : Nat :=
  let arrived := (cbArrived w + 1) % 2 ^ 16
  let full := decide (arrived = cbExpect w) && decide (0 < cbExpect w)
  let phase := if full then (cbPhase w + 1) % 2 ^ 16 else cbPhase w
  w / 2 ^ 32 * 2 ^ 32 + (if full then 0 else arrived) * 2 ^ 16 + phase

/-- An engine arrival on the word at a key (R211, R337): exempt from race checking. -/
def State.arriveAt (s : State) (key gs bound : Nat) (before : Before) : State :=
  let w := s.rdNat key 8
  let s := (s.engineMeets true [key]).storeNat key 8 (cbArrive w)
  { s with arrivals := ⟨key, cbPhase w, gs, bound, before⟩ :: s.arrivals }

/-! ## The Skidder. An operation's numbers: the barrier's key or 0, the issuing region, then for each record its source, its
destination and the bytes still to copy. -/

/-- The records of a copy. -/
def copyRecords : List Nat → List (Nat × Nat × Nat)
  | a :: b :: n :: rest => (a, b, n) :: copyRecords rest
  | _ => []

/-- The numbers of records. -/
def copyNums (rs : List (Nat × Nat × Nat)) : List Nat := rs.flatMap fun r => [r.1, r.2.1, r.2.2]

/-- The largest piece that a copy is charged for at once (R403). DESIGN CHOICE (log entry 28), unsafe for how much of a copy
stands. -/
def pieceBytes : Nat := 4096

/-- An earlier copy of the group that has not completed writes a byte that this one writes (R237). -/
def State.copyWaits (s : State) (o : Op) : Bool :=
  let mine := copyRecords (o.nums.drop 2)
  s.ops.any fun e =>
    e.gs == o.gs && e.path == some .sk && !e.complete && decide (e.id < o.id)
    && (copyRecords (e.nums.drop 2)).any fun r =>
        mine.any fun m => decide (r.2.1 < m.2.1 + m.2.2) && decide (m.2.1 < r.2.1 + r.2.2)

/-- The copy is done: it arrives on its barrier, and is counted out (R211, R237). -/
def State.finishCopy (s : State) (o : Op) : State :=
  let key := o.nums.headD 0
  let s := if key = 0 then s else s.arriveAt key o.gs (o.nums.getD 1 0 + 1) (s.opPast o)
  s.completeOp o.id

/-- The next piece of a copy performs: bytes of one record, at most as many as given. -/
def State.copyPiece (s : State) (id most : Nat) : State :=
  match s.op? id with
  | none => s
  | some o =>
    if o.complete || o.suspended.isSome then s
    else
      let (grid, ctx) := s.placeOf o.gs
      match copyRecords (o.nums.drop 2) with
      | [] => s.finishCopy o
      | (src, dst, n) :: rest =>
        let m := min n most
        match s.engineRead grid ctx src m with
        | .error e => s.stopOp o e false
        | .ok bs =>
          match s.keys grid ctx Need.load src m, s.keys grid ctx Need.store dst m with
          | .ok outof, .ok into =>
            match s.checkAllLate o [(false, src, m), (true, dst, m)] with
            | .error stopped => stopped
            | .ok s =>
              let s := (s.engineMeets false outof).engineStore o.gs 1 o.region o.leaves into bs
              let left := if m < n then (src + m, dst + m, n - m) :: rest else rest
              let o' := { o with begun := true, leaves := s.now, nums := o.nums.take 2 ++ copyNums left }
              let s := s.modOp id fun _ => o'
              if left.isEmpty then s.finishCopy o' else s
          | .error e, _ => s.stopOp o e false
          | _, .error e => s.stopOp o e true

end Sys2Proof.Machine
end

