-- ==== Sys2Proof/Machine/CanopyStep.lean ====
section
/-!
DEFINITION. The Canopy at work: slots, insertion and commit, the adjoint log and its replay, one lane at a time (R239 to R244,
R351 to R358).
-/
namespace Sys2Proof.Machine

/-! ## The slot. A slot is held as its 256 bytes while a lane's step runs. -/

abbrev Slot := List Byte

def Slot.word (x : Slot) (off : Nat) : Nat := fieldAt x off 4
def Slot.put (x : Slot) (off v : Nat) : Slot := setField x off 4 v

def Slot.nbuf (x : Slot) : Nat := x.word 0x28 / 128 % 16
def Slot.logx (x : Slot) : Bool := Nat.testBit (x.word 0x28) 6
def Slot.retiredBit (x : Slot) : Bool := Nat.testBit (x.word 0x28) 5
def Slot.k (x : Slot) : Nat := x.word 0x28 % 32

/-- K outside 4 to 16, or more than 8 buffered entries (R351). -/
def Slot.damaged (x : Slot) : Bool := decide (x.k < 4) || decide (16 < x.k) || decide (8 < x.nbuf)

/-- The slot takes no more samples. -/
def Slot.retired (x : Slot) : Bool := x.retiredBit || x.damaged

/-- The state word; its reserved bits are written 0. -/
def Slot.setState (x : Slot) (nbuf : Nat) (logx retired : Bool) : Slot :=
  x.put 0x28 (x.k + (if retired then 32 else 0) + (if logx then 64 else 0) + nbuf % 16 * 128)

/-- T_min as F32. -/
def Slot.tmin (x : Slot) : Nat := (127 - x.k) * 2 ^ 23

/-- T has come to T_min. -/
def Slot.spent (x : Slot) : Bool := le32 (x.word 0x0C) x.tmin

/-- A sample: depth in F32, α and colour in F16, its id (R241, R352). -/
structure Sample where
  depth : Nat
  alpha : Nat
  red : Nat
  grn : Nat
  blu : Nat
  id : Nat
deriving DecidableEq, Repr

/-- The buffered entries, nearest first. -/
def Slot.entry (x : Slot) (i : Nat) : Sample :=
  let o := 0x80 + 16 * i
  { depth := x.word o, alpha := fieldAt x (o + 4) 2, red := fieldAt x (o + 6) 2, grn := fieldAt x (o + 8) 2
    blu := fieldAt x (o + 10) 2, id := fieldAt x (o + 12) 3 }
def Slot.entries (x : Slot) : List Sample := (List.range x.nbuf).map x.entry

/-- The buffer written; entries beyond it are left. -/
def Slot.setEntries (x : Slot) (es : List Sample) : Slot :=
  let x := (es.zip (List.range es.length)).foldl (fun (x : Slot) (e : Sample × Nat) =>
    let o := 0x80 + 16 * e.2
    setField (setField (setField (setField (setField (setField x o 4 e.1.depth) (o + 4) 2 e.1.alpha) (o + 6) 2 e.1.red)
      (o + 8) 2 e.1.grn) (o + 10) 2 e.1.blu) (o + 12) 4 e.1.id) x
  x.setState es.length x.logx x.retiredBit

/-- F16 of an F32 value, and back, exactly (R53, R241). -/
def toF16 (c : Nat) : Nat := f16.pack .rne false 0 (f32.value c)
def wideF16 (c : Nat) : Nat := ne32 (f16.value c)

/-- The colour of a sample as F32. -/
def Sample.colour (e : Sample) : List Nat := [wideF16 e.red, wideF16 e.grn, wideF16 e.blu]

/-- The bytes of a log entry (R353). -/
def logEntry (x : Slot) (kind id alpha depth : Nat) (c : List Nat) : List Byte :=
  leBytes 4 (id % 2 ^ 24 + kind * 2 ^ 24) ++ leBytes 4 alpha ++ leBytes 4 (x.word 0x0C) ++ c.flatMap (leBytes 4)
    ++ leBytes 4 (x.word 0) ++ leBytes 4 (x.word 4) ++ leBytes 4 (x.word 8) ++ leBytes 4 depth ++ leBytes 8 0

/-- A slot at work, with the numbers of its words that have been written and the log entries: each an SRAM-space offset and its bytes. -/
structure Work where
  slot : Slot
  wrote : List Nat
  logs : List (Nat × List Byte)

/-- A word written. -/
def Work.put (w : Work) (off v : Nat) : Work := { w with slot := w.slot.put off v, wrote := off / 4 :: w.wrote }

/-- The state word written. -/
def Work.setState (w : Work) (nbuf : Nat) (logx retired : Bool) : Work :=
  { w with slot := w.slot.setState nbuf logx retired, wrote := 10 :: w.wrote }

/-- The buffer written, of which the entries from a number up to another change place or are new. -/
def Work.setEntries (w : Work) (es : List Sample) (first last : Nat) : Work :=
  { w with
    slot := w.slot.setEntries es
    wrote := 10 :: (List.range (4 * (last - first))).map (32 + 4 * first + ·) ++ w.wrote }

/-- Log() (R241, R353): `reach` says whether an entry at an offset lies within the team's reach. -/
def Work.log (w : Work) (reach : Nat → Bool) (kind id alpha depth : Nat) (c : List Nat) : Work :=
  let x := w.slot
  let cap := fieldAt x 0x26 2
  let cnt := fieldAt x 0x24 2
  let off := x.word 0x20 + 48 * cnt
  if cnt < cap && reach off then
    { slot := setField x 0x24 2 (cnt + 1), wrote := 9 :: w.wrote, logs := w.logs ++ [(off, logEntry x kind id alpha depth c)] }
  else w.setState x.nbuf true x.retiredBit

/-- The three colour words after a function of each with the sample's channel. -/
def Work.blend (w : Work) (f : Nat → Nat → Nat) (c : List Nat) : Work :=
  (List.range 3).foldl (fun (w : Work) i => w.put (4 * i) (f (c.getD i 0) (w.slot.word (4 * i)))) w

/-- F32 1.0. -/
def oneF32 : Nat := 0x3F800000

/-- Behind() (R241). -/
def Work.behind (w : Work) (reach : Nat → Bool) (e : Sample) : Work :=
  let a := wideF16 e.alpha
  let w := w.log reach 0 e.id a e.depth e.colour
  let t := w.slot.word 0x0C
  let w := w.blend (fun c v => fma32 (mul32 t a) c v) e.colour
  (w.put 0x0C (mul32 t (sub32 oneF32 a))).put 0x14 ((w.slot.word 0x14 + 1) % 2 ^ 32)

/-- Front() (R241). -/
def Work.front (w : Work) (reach : Nat → Bool) (e : Sample) : Work :=
  let a := wideF16 e.alpha
  let w := w.log reach 1 e.id a e.depth e.colour
  let u := sub32 oneF32 a
  let w := w.blend (fun c v => fma32 a c (mul32 u v)) e.colour
  (w.put 0x0C (mul32 u (w.slot.word 0x0C))).put 0x14 ((w.slot.word 0x14 + 1) % 2 ^ 32)

/-- The place of a sample: after every entry of equal or lesser depth. -/
def samplePlace (es : List Sample) (e : Sample) : Nat :=
  (List.range es.length).foldl (fun n i => if le32 (es.getD i e).depth e.depth then i + 1 else n) 0

/-- A sample inserted at its place. -/
def insertSample (es : List Sample) (e : Sample) : List Sample :=
  es.take (samplePlace es e) ++ e :: es.drop (samplePlace es e)

/-- CNAD on one slot: the slot after it and the code (R241). -/
def Work.add (w : Work) (reach : Nat → Bool) (e : Sample) : Work × Nat :=
  let x := w.slot
  let r : Work × Nat :=
    if x.retired || f32.isNan e.depth then (w.put 0x1C ((x.word 0x1C + 1) % 2 ^ 32), 3)
    else if lt32 e.depth (x.word 0x10) then
      let w := w.front reach e
      (w.put 0x18 ((w.slot.word 0x18 + 1) % 2 ^ 32), 2)
    else
      let at' := samplePlace x.entries e
      match insertSample x.entries e with
      | [] => (w, 0)
      | n :: rest =>
        if rest.length = 8 then (((w.setEntries rest 0 at').behind reach n).put 0x10 n.depth, 1)
        else (w.setEntries (n :: rest) at' (rest.length + 1), 0)
  let y := r.1.slot
  if !y.retired && y.spent then (r.1.setState 0 y.logx true, r.2 + 16) else r

/-- The buffer of a slot committed (R243). -/
def Work.drain (w : Work) (reach : Nat → Bool) : Nat → Work
  | 0 => w
  | n + 1 =>
    let x := w.slot
    if x.retired then w
    else
      match x.entries with
      | [] => w
      | e :: rest =>
        let w := ((w.setEntries rest 0 rest.length).behind reach e).put 0x10 e.depth
        (if w.slot.spent then w.setState 0 w.slot.logx true else w).drain reach n

/-- CNCL on one slot (R243). DEDUCED (log entry 27): unsafe for a damaged slot. -/
def Work.close (w : Work) (reach : Nat → Bool) (bg : Option (List Nat)) : Work :=
  let w := w.drain reach 9
  let w := match bg with
    | some c =>
      let w := w.log reach 2 0xFFFFFF 0 0x7F800000 c
      w.blend (fun c v => fma32 (w.slot.word 0x0C) c v) c
    | none => w
  if w.slot.retiredBit then w else w.setState w.slot.nbuf w.slot.logx true

/-- The slot that CNOP writes: every field but the buffer entries (R240, R351). -/
def openSlot (old : Slot) (ctl logoff : Nat) : Slot :=
  let k := if ctl % 32 = 0 then 8 else ctl % 32
  leBytes 12 0 ++ leBytes 4 oneF32 ++ leBytes 4 0xFF800000 ++ leBytes 12 0 ++ leBytes 4 logoff
    ++ leBytes 4 (ctl / 32 % 65536 * 65536) ++ leBytes 4 k ++ leBytes 84 0 ++ old.drop 0x80

/-- The offsets at which a range is looked up: one a page, and its last byte. -/
def probes (off n : Nat) : List Nat :=
  if n = 0 then [] else (List.range ((off + n - 1) / 4096 + 1 - off / 4096)).map fun i => max off ((off / 4096 + i) * 4096)

/-- The first offset of a range that the team may not reach, and whether it stands in a saved team (R224, R319). -/
def State.offsetBad (s : State) (grid off n : Nat) : Option (Nat × Reach) :=
  (probes off n).findSome? fun x =>
    match s.sramReach grid x with
    | .ok .. => none
    | r => some (x, r)

/-! ## The lane step -/

/-- A captured operand word. -/
def Op.operand (o : Op) (r l : Nat) : Nat := ((lookup o.cap.vec (vkey r 0 l)).getD 0).toNat

/-- The sample of a lane (R241). -/
def Op.sample (o : Op) (a l : Nat) : Sample :=
  { depth := o.operand (a + 1) l, alpha := toF16 (f32.unit (o.operand (a + 2) l)), red := toF16 (o.operand (a + 3) l)
    grn := toF16 (o.operand (a + 4) l), blu := toF16 (o.operand (a + 5) l), id := o.operand (a + 6) l % 2 ^ 24 }

/-- The words of a slot or a log that a step is about to write stay in sight of LS loads while its operation is pending: each as an
entry of `got` under its key (R356). -/
def State.keepWords (s : State) (o : Op) (key n : Nat) : State :=
  s.modOp o.id fun o => { o with
    got := (List.range (n / 4)).map (fun i => 
      ({ lane := 0, part := 0, sector := key + 4 * i, data := s.rdNat (key + 4 * i) 4 } : Returned)) ++ o.got }

/-- Bytes a Canopy operation writes. -/
def State.canopyStore (s : State) (o : Op) (key : Nat) (bs : List Byte) (chk : Bool) : State :=
  let s := s.engineStore o.gs 4 o.region o.leaves (keysFrom key bs.length) bs
  if chk then s.tagAccess (o.engineChecked true) key bs.length else s

/-- Bytes a Canopy operation reads. -/
def State.canopyLoad (s : State) (o : Op) (key n : Nat) (chk : Bool) : State :=
  let s := s.engineMeets false ((granules key n).map (max key))
  if chk then s.tagAccess (o.engineChecked false) key n else s

/-- The words of a slot that a step has written, stored, each once, also where the value is the old one (R355). -/
def State.storeSlot (s : State) (o : Op) (key : Nat) (slot : Slot) (wrote : List Nat) : State :=
  ((List.range 64).filter wrote.contains).foldl (fun (s : State) i =>
    (s.keepWords o (key + 4 * i) 4).canopyStore o (key + 4 * i) (leBytes 4 (slot.word (4 * i))) true) s

/-- What a lane's step has done, stored. -/
def State.storeWork (s : State) (o : Op) (key : Nat) (w : Work) : State :=
  let s := w.logs.foldl (fun (s : State) e => (s.keepWords o (sramKey e.1) 48).canopyStore o (sramKey e.1) e.2 true) s
  s.storeSlot o key w.slot w.wrote

/-- Words written to a lane's registers; planes are left (R239). -/
def State.canopyRegs (s : State) (o : Op) (d l : Nat) (ws : List Nat) : State :=
  s.modGroup o.gs fun g =>
    g.putVs ((ws.zip (List.range ws.length)).map fun w => (vkey (d + w.2) 0 l, BitVec.ofNat 32 w.1))

/-- What CNRD reads (R242). -/
def Slot.report (x : Slot) : List Nat :=
  [x.word 0, x.word 4, x.word 8, x.word 0x0C, x.word 0x10, x.word 0x14, x.word 0x18, x.word 0x1C,
   (if x.retiredBit then 1 else 0) + (if x.logx then 2 else 0) + x.nbuf * 4 + fieldAt x 0x24 2 * 65536]

/-- A replay at work: gC, gT, the gradient entries to write, the count, and whether an entry was out of reach (R244). -/
structure Replay where
  gc : List Nat
  gt : Nat
  out : List (Nat × List Nat)
  count : Nat
  skipped : Bool

/-- A chain of Fma over R, G and B. -/
def fmaChain (g : List Nat) (f : Nat → Nat) (start : Nat) : Nat :=
  (List.range 3).foldl (fun v i => fma32 (g.getD i 0) (f i) v) start

/-- One log entry replayed (R244). -/
def Replay.step (r : Replay) (e : List Byte) : Replay :=
  let w := fun (off : Nat) => fieldAt e off 4
  let kind := w 0 / 2 ^ 24 % 4
  let id := w 0 % 2 ^ 24
  let a := w 4
  let t := w 8
  let c := fun i => w (0x0C + 4 * i)
  let b := fun i => w (0x18 + 4 * i)
  let u := sub32 oneF32 a
  match kind with
  | 0 =>
    let ga := fmaChain r.gc (fun i => mul32 t (c i)) (neg32 (mul32 r.gt t))
    { r with
      out := r.out ++ [(id, ga :: r.gc.map fun g => mul32 (mul32 g t) a)]
      gt := fmaChain r.gc (fun i => mul32 a (c i)) (mul32 r.gt u)
      count := r.count + 1 }
  | 1 =>
    let ga := fmaChain r.gc (fun i => sub32 (c i) (b i)) (neg32 (mul32 r.gt t))
    { r with
      out := r.out ++ [(id, ga :: r.gc.map fun g => mul32 a g)]
      gt := mul32 u r.gt
      gc := r.gc.map fun g => mul32 u g
      count := r.count + 1 }
  | 2 => { r with gt := fmaChain r.gc c r.gt, count := r.count + 1 }
  | _ => r

/-- The log entries from number n − 1 down to 0. -/
def State.replay (s : State) (grid logoff : Nat) : Nat → Replay → Replay
  | 0, r => r
  | n + 1, r =>
    let off := logoff + 48 * n
    match s.offsetBad grid off 48 with
    | some _ => s.replay grid logoff n { r with skipped := true }
    | none => s.replay grid logoff n (r.step (s.rdBytes (sramKey off) 48))

/-- The keys of gradient entries, or the first that is not reached. -/
def State.gradKeys (s : State) (grid ctx base : Nat) (acc : Bool) : List (Nat × List Nat) →
    Except (Nat × Reach) (List (Nat × Bool × List Nat))
  | [] => .ok []
  | (id, ws) :: rest =>
    let va := (base + 16 * id) % 2 ^ 64
    match s.resolve grid ctx none (if acc then Need.both else Need.store) va 16 with
    | .ok key chk =>
      if s.stackWaits key then .error (va, .no ⟨0, false, key⟩)
      else if acc && s.poisoned key 16 then .error (va, .no ⟨3, true, key⟩)
      else (s.gradKeys grid ctx base acc rest).map ((key, chk, ws) :: ·)
    | r => .error (va, r)

/-- The gradient entries stored or added (R244). -/
def State.storeGrads (s : State) (o : Op) (acc : Bool) (gs : List (Nat × Bool × List Nat)) : State :=
  gs.foldl (fun (s : State) g =>
    (List.range 4).foldl (fun (s : State) i =>
      let key := g.1 + 4 * i
      let v := g.2.2.getD i 0
      s.canopyStore o key (leBytes 4 (if acc then add32 (s.rdNat key 4) v else v)) g.2.1) s) s

/-- A step's accesses beside its slot are charged as those of the core whose slice holds the slot (R239, R403). -/
def State.payStep (s : State) (o : Op) (x : Access) (keys : List Nat) : Option State :=
  s.acceptFrom (s.budgetOf o.gs) (sliceOf x.pa) keys

/-- The keys of log entries. -/
def logKeys (offs : List Nat) : List Nat := offs.flatMap fun off => (List.range 48).map (sramKey off + ·)

/-- A lane's step of CNAJ. -/
def State.adjoint (s : State) (o : Op) (x : Access) (d a : Nat) : State :=
  let (grid, ctx) := s.placeOf o.gs
  let slot : Slot := s.rdBytes x.pa 256
  let ctl := o.nums.headD 0
  let acc := decide (ctl % 2 = 1)
  let start : Replay :=
    { gc := (List.range 3).map fun i => o.operand (a + 1 + i) x.lane, gt := o.operand (a + 4) x.lane, out := [], count := 0
      skipped := false }
  let cnt := fieldAt slot 0x24 2
  let r := s.replay grid (slot.word 0x20) cnt start
  match s.gradKeys grid ctx (ctl - ctl % 2) acc r.out with
  | .error e => s.stopOp o e true
  | .ok gs =>
    let logs := ((List.range cnt).map fun n => slot.word 0x20 + 48 * n).filter fun off => (s.offsetBad grid off 48).isNone
    match logs.find? fun off => s.poisoned (sramKey off) 48 with
    | some off => s.stopOp o (sramVa + off, .no ⟨3, true, sramKey off⟩) false
    | none =>
    match s.payStep o x (logKeys logs ++ gs.flatMap fun g => (List.range 16).map (g.1 + ·)) with
    | none => s
    | some s =>
    let s := logs.foldl (fun (s : State) off => s.canopyLoad o (sramKey off) 48 true) s
    let s := (s.canopyLoad o x.pa 128 true).storeGrads o acc gs
    let s := s.canopyRegs o d x.lane
      [r.count % 65536 + (if r.skipped then 2 ^ 30 else 0) + (if slot.logx then 2 ^ 31 else 0)]
    s.modOp o.id fun o => { o with begun := true, leaves := s.now, todo := o.todo.erase x }

/-- A lane's step on its slot (R239); one whose accesses its budget does not admit yet waits (R403). -/
def State.canopyLane (s : State) (o : Op) (x : Access) : State :=
  let (grid, _) := s.placeOf o.gs
  let old : Slot := s.rdBytes x.pa 256
  let reach := fun off => (s.offsetBad grid off 48).isNone
  let w : Work := { slot := old, wrote := [], logs := [] }
  let done := fun (s : State) => s.modOp o.id fun o => { o with begun := true, leaves := s.now, todo := o.todo.erase x }
  let load := s.canopyLoad o x.pa 256 true
  let commit := fun (w : Work) (f : State → State) =>
    match load.payStep o x (logKeys (w.logs.map (·.1))) with
    | none => s
    | some t => done (f (t.storeWork o x.pa w))
  match o.cap.instr with
  | .cnop _ a _ =>
    done (s.storeSlot o x.pa (openSlot old (o.nums.headD 0) (o.operand (a + 1) x.lane)) (List.range 32))
  | .cnad d a _ =>
    let r := w.add reach (o.sample a x.lane)
    commit r.1 fun s => s.canopyRegs o d x.lane [r.2]
  | .cnrd d _ _ => done (load.canopyRegs o d x.lane old.report)
  | .cncl _ a _ =>
    let bg := if o.nums.headD 0 % 2 = 1 then some ((List.range 3).map fun i => o.operand (a + 1 + i) x.lane) else none
    commit (w.close reach bg) id
  | .cnaj d _ a _ => s.adjoint o x d a
  | _ => s

/-- The log area of a slot stands in a saved team's bytes (R319). -/
def State.logWaits (s : State) (grid : Nat) (x : Slot) : Option (Nat × Reach) :=
  match s.offsetBad grid (x.word 0x20) (48 * fieldAt x 0x26 2) with
  | some (off, .saved t) => some (sramVa + off, .saved t)
  | _ => none

/-- The next lane of a Canopy operation (R239): lanes ascend, and one group's operations on a slot keep their order. An operation
whose lanes have all performed completes. -/
def State.canopyStep (s : State) (id : Nat) : State :=
  match s.op? id with
  | none => s
  | some o =>
    match o.todo with
    | [] => if o.path != some .cn || o.complete || o.suspended.isSome then s else s.completeOp id
    | x :: _ =>
      let earlier := s.ops.any fun e =>
        e.gs == o.gs && e.path == some .cn && decide (e.id < o.id) && e.todo.any fun y => y.pa == x.pa
      if o.path != some .cn || o.complete || o.suspended.isSome || earlier then s
      else
        let (grid, _) := s.placeOf o.gs
        match s.sramReach grid (x.pa - sramBase) with
        | .ok .. =>
          let isOpen := match o.cap.instr with | .cnop .. => true | _ => false
          if !isOpen && s.poisoned x.pa 256 then s.stopOp o (x.va, .no ⟨3, true, x.pa⟩) false
          else
            match if isOpen then none else s.logWaits grid (s.rdBytes x.pa 256) with
            | some e => s.stopOp o e true
            | none => s.canopyLane o x
        | r => s.stopOp o (x.va, r) true

end Sys2Proof.Machine
end

