-- ==== Sys2Proof/Machine/RayRecord.lean ====
section
/-!
DEFINITION. The fields of the 192-byte ray-state record (R359 to R361) and its write-back (R263, R363).
-/
namespace Sys2Proof.Machine

/-- Bits hi:lo of the 32-bit word at an offset of a list of bytes. -/
def bitsAt (bs : List Byte) (off hi lo : Nat) : Nat := bits (fieldAt bs off 4) hi lo

/-- Those bits written. -/
def setBitsAt (bs : List Byte) (off hi lo v : Nat) : List Byte :=
  let w := fieldAt bs off 4
  let m := 2 ^ (hi + 1 - lo)
  setField bs off 4 (w - (w / 2 ^ lo % m) * 2 ^ lo + (v % m) * 2 ^ lo)

/-- STATUS values (R359). -/
def statusIdle : Nat := 0
def statusRunning : Nat := 1
def statusDone : Nat := 2
def statusFaulted : Nat := 3
def statusAnyhit : Nat := 4

def recStatus (bs : List Byte) : Nat := bitsAt bs 0x28 26 24
def recCode (bs : List Byte) : Nat := bitsAt bs 0x28 28 27
def recOwner (bs : List Byte) : Nat := bitsAt bs 0x28 15 0

/-- STATUS and CODE written. -/
def setStatus (bs : List Byte) (status code : Nat) : List Byte :=
  setBitsAt (setBitsAt bs 0x28 26 24 status) 0x28 28 27 code

/-- FAULTINFO of an end or a fault (R361): it clears BKV. -/
def setFaultInfo (bs : List Byte) (cause wr sub addr mpc : Nat) : List Byte :=
  let bs := setBitsAt bs 0x28 31 31 0
  let bs := setField bs 0xAC 4 (cause + 256 * wr + 65536 * sub)
  let bs := setField bs 0xB0 8 addr
  let bs := setField bs 0xB8 4 mpc
  setField bs 0xBC 4 0

/-- Reserved fields written 0 (R359). -/
def cleanRecord (bs : List Byte) : List Byte :=
  let bs := setBitsAt bs 0x2C 15 15 0
  let bs := setBitsAt bs 0x74 31 25 0
  setBitsAt bs 0x78 30 17 0

/-- The record written whole (R263, R363), or the address that stops it. -/
def State.writeRecord (s : State) (r : Ray) : Except (Nat × Reach) State :=
  s.engineWrite r.gs r.grid r.ctx r.record (cleanRecord r.bytes)

/-- The ray's accesses charged to its budget (R403). -/
def State.chargeRay (s : State) (r : Ray) (keys : List Nat) : Option State := s.acceptFrom r.budget r.core keys

/-- The accesses of a range that a ray reads or writes charged, where it reaches memory. -/
def State.chargeRange (s : State) (r : Ray) (need : Need) (va n : Nat) : Option State :=
  match s.keys r.grid r.ctx need va n with
  | .ok ks => s.chargeRay r ks
  | .error _ => some s

/-- The record written back whole once it is charged (R263, R363, R403), or the address that stops it. -/
def State.writeBack (s : State) (r : Ray) : Except (Nat × Reach) State :=
  match s.chargeRange r Need.store r.record 192 with
  | some s => s.writeRecord r
  | none => .error (r.record, .no ⟨0, false, 0⟩)

/-- The ray stands in a Cruiser's slot: it runs, has results to deliver, retries an access, or holds a fault for a full ring
(R364, R452, R475). -/
def Ray.held (r : Ray) : Bool :=
  !r.queued && (r.stuck != 0 || match r.faulted with | some (some _) => false | _ => true)

/-- The record of a ray as it stands: what the Cruiser holds, or what memory holds once the ray has left it. -/
def State.recordOf (s : State) (r : Ray) : List Byte :=
  if r.held && r.stuck != 2 then r.bytes
  else match s.engineRead r.grid r.ctx r.record 192 with | .ok bs => bs | .error _ => r.bytes

/-- A ray of a killed team stops: DONE, CODE 3, CAUSE 5, and nothing is delivered. A record whose write-back had not come through is
no DONE one, and one in the bytes of a saved team, or in a stack that is not up,
is written later (R364, R367, R469). -/
def State.killRay (s : State) (r : Ray) : State :=
  let bs := s.recordOf r
  let st := recStatus bs
  let s := { s with rays := s.rays.filter fun (x : Ray) => x.id != r.id }
  if st = statusRunning ∨ st = statusFaulted ∨ r.stuck = 1 then
    let r := { r with bytes := setFaultInfo (setStatus bs statusDone 3) 5 0 0 0 (bitsAt bs 0x2C 10 0) }
    match s.writeRecord r with
    | .ok s => s
    | .error (_, why) =>
      if why.waits || (match why with | .saved _ => true | _ => false) then
        { s with rays := s.rays ++ [{ r with gs := noGroup, stuck := 1, faulted := none, queued := false, code := none, mute := true }] }
      else s
  else s

end Sys2Proof.Machine
end

