-- ==== Sys2Proof/Machine/Drain.lean ====
section
/-!
DEFINITION. The operations that a kill brings to their end: those whose requests have been accepted (R403, R456).
-/
namespace Sys2Proof.Machine

/-- An operation of the LS path, accepted whole as its first lane performs, completes; of a copy or of a Canopy operation what has been
accepted has performed, and the rest is dropped, with the arrival that would come after it (R403, R456). -/
def State.finishOp (s : State) (id : Nat) : State :=
  match s.op? id with
  | none => s
  | some o => if o.suspended.isSome || o.path != some .ls || (o.todo.isEmpty && o.got.isEmpty) then s else s.finishLs id

/-- The operations of a list, in order, completed if they have begun. -/
def State.finishBegun (s : State) : List Op → State
  | [] => s
  | o :: rest => (if o.begun && !o.complete then s.finishOp o.id else s).finishBegun rest

end Sys2Proof.Machine
end

