-- ==== Sys2Proof/Machine/Kill.lean ====
section
/-!
DEFINITION. The end of groups and teams: a group that ends, a team that retires, a team that is killed, and a context that
is damaged (R117, R205, R367, R375, R416, R437, R455, R456).
-/
namespace Sys2Proof.Machine

/-- A barrier word of a team (R204). -/
def Barrier.zero : Barrier :=
  { expect := 0, phase := 0, arrived := [], cut := [], horizon := [], horizonOvf := false, pendingCut := [],
    pendingHorizon := [] }

def Team.barrier (t : Team) (j : Nat) : Barrier := sget Barrier.zero t.barriers j

def Team.setBarrier (t : Team) (j : Nat) (b : Barrier) : Team := { t with barriers := sset Barrier.zero t.barriers j b }

/-- The phase completes: the phase number advances, and the barrier's cut and horizon set take the arrivals' (R205,
R337). What the groups that have ended did is ordered before it too (R326). -/
def Barrier.complete (b : Barrier) (ended : Before) : Barrier :=
  let h := b.pendingHorizon.foldl (fun (m : List (Nat × Nat)) e => mergeBound m e.1 e.2) []
  { b with
    phase := (b.phase + 1) % 2 ^ 16
    arrived := []
    cut := b.pendingCut.foldl (fun m e => insertKey m e.1 e.2) b.cut
    horizon := h.take 8
    horizonOvf := decide (8 < h.length)
    pendingCut := []
    pendingHorizon := []
    before := Before.join (Before.join b.before b.pendingBefore) ended
    pendingBefore := [] }

/-- The live groups' numbers in a team. -/
def State.liveIds (s : State) (serial : Nat) : List Nat := (s.liveGroups serial).map (·.gid)

/-- Complete() of a team barrier with at least one arrival (R205). -/
def Barrier.isComplete (b : Barrier) (alive : List Nat) : Bool :=
  !b.arrived.isEmpty && (if b.expect = 0 then alive.all b.arrived.contains else decide (b.arrived.length = b.expect))

/-- After a group's end: every barrier whose EXPECT is 0 is evaluated again (R205). The epoch advances where every live
group had arrived (R335). -/
def State.recheckBarriers (s : State) (serial : Nat) : State :=
  let alive := s.liveIds serial
  s.modTeam serial fun t =>
    (List.range 16).foldl (fun t j =>
      let b := t.barrier j
      if b.expect = 0 && b.isComplete alive then { (t.setBarrier j (b.complete t.before)) with epoch := t.epoch + 1 } else t) t

/-- The teams of a cluster launch that stand with a team; the team alone outside one (R392). -/
def State.clusterTeams (s : State) (t : Team) : List Team :=
  match t.cluster with
  | none => [t]
  | some _ => s.teams.filter fun u => u.grid == t.grid && u.index / 4 == t.index / 4 && u.cluster.isSome

/-- What the ended groups of a cluster's teams did (R326). -/
def State.endedBefore (s : State) (t : Team) : Before :=
  (s.clusterTeams t).foldl (fun b u => Before.join b u.before) []

/-- The key of a cluster barrier: grid and cluster of teams (R208). -/
def clusterKey (t : Team) : Nat := t.grid * 2 ^ 32 + t.index / 4

/-- The numbers of the live groups of a cluster's teams: 32 c + GROUPID (R208). -/
def State.clusterIds (s : State) (t : Team) : List Nat :=
  (s.clusterTeams t).flatMap fun u => (s.liveIds u.serial).map fun g => 32 * (u.index % 4) + g

/-- The cluster barrier is evaluated again after a group's end (R205, R208). -/
def State.recheckCluster (s : State) (serial : Nat) : State :=
  match s.team? serial with
  | none => s
  | some t =>
    match t.cluster with
    | none => s
    | some _ =>
      let b := sget Barrier.zero s.clusterBarriers (clusterKey t)
      if b.isComplete (s.clusterIds t) then
        { s with
          clusterBarriers := sset Barrier.zero s.clusterBarriers (clusterKey t) (b.complete (s.endedBefore t))
          teams := s.teams.map fun u =>
            if (s.clusterTeams t).any (fun v => v.serial == u.serial) then { u with passedCbar := true } else u }
      else s

/-- The numbers under which a team's groups stand. -/
def State.places (s : State) (serial : Nat) : List Nat := (s.allGroups.filter fun g => g.team == serial).map (·.gs)

/-- What waited for a saved team goes on: as after service where it has been restored; otherwise the fault has become a PERM
that cannot be serviced (R319). -/
def State.releaseWaiters (s : State) (serial : Nat) (restored : Bool) : State :=
  let s := (s.ops.filter fun (o : Op) => o.waits == some serial).foldl (fun (s : State) o =>
    if restored then s.resumeOp o.id else s.failOp o.id permFinal.cause 0) s
  s.allGroups.foldl (fun (s : State) g =>
    (g.parked.filter fun (p : Parked) => p.waits == some serial).foldl (fun (s : State) p =>
      if restored then s.unpark g.gs p false else s.unpark g.gs { p with cause := permFinal.cause } true) s) s

/-- Requests that have no team left to settle are over: vector 1 is signalled for each. -/
def State.settleRequests (s : State) : State :=
  let open' := fun (serial : Nat) => (s.team? serial).any fun t => t.request.isSome && !t.saved && !t.ended
  let left := s.preq.map fun ts => ts.filter open'
  let ended := (left.filter (·.isEmpty)).length
  { s with preq := left.filter (!·.isEmpty), msix := List.replicate ended 1 ++ s.msix }

/-- What a team leaves when its last group has ended: its tiles, its operations' records, its slots with the last region
used in each (R117, R335, R375, R437). -/
def State.retireTeam (s : State) (serial : Nat) : State :=
  match s.team? serial with
  | none => s
  | some t =>
    let here := s.places serial
    let mine := fun (gs : Nat) => here.contains gs
    let left : List Group := s.allGroups.filter fun g => g.team == serial && !g.ended
    let regions := left.foldl (fun (m : Sparse Nat) g => 
      let n := s.realSlot g.gs
      sset 0 m n (max g.race.rg (sget 0 m n))) s.lastRegion
    let s := s.modTeam serial fun t => { t with ended := true }
    let was := left.foldl (fun b g => Before.join b { g with gs := s.realSlot g.gs }.past) t.before
    let s := s.modGrid t.grid fun g => { g with before := Before.join g.before was }
    let s := { s with
      groups := s.groups.filter fun g => g.team != serial
      -- those of a saved team are in its image, and their numbers may be another team's by now (R368, R376)
      tiles := if t.saved then s.tiles else t.tiles.foldl (fun m p => skeep (fun k => k != p) m) s.tiles
      lastRegion := regions
      lastReleases := (s.allGroups.filter fun (g : Group) => g.team == serial).foldl (fun (m : Sparse Nat) (g : Group) =>
        sset 0 m (g.race.start * noGroup + s.realSlot g.gs) g.race.release) s.lastReleases
      ops := s.ops.filter fun o => !mine o.gs }
    (s.releaseWaiters serial false).settleRequests

/-- The group ends: its slot and registers are released, barriers are evaluated again, and its team retires with its last
group (R117, R205). Nothing of it is in flight by then, for EXIT waits under R88. -/
def State.endGroup (s : State) (gs : Nat) : State :=
  match s.anyGroup? gs with
  | none => s
  | some g =>
    let gone := savedSlot g.team g.gid
    let s := s.modGroup gs fun g =>
      { g with ended := true, gs := gone, vregs := [], sregs := [], parked := [], joins := [] }
    let s := { s with
      lastRegion := sset 0 s.lastRegion gs (max g.race.rg (sget 0 s.lastRegion gs))
      groups := s.groups.map fun (x : Group) => if x.gs == gone then { x with frags := [] } else x
      me := if s.live && s.me.gs == gone then { s.me with frags := [] } else s.me }
    let s := s.modTeam g.team fun t =>
      { t with slots := t.slots.set g.gid gone, before := Before.join t.before g.past }
    let s := (s.recheckBarriers g.team).recheckCluster g.team
    if (s.liveGroups g.team).isEmpty then s.park.retireTeam g.team else s

/-- Records that a team allocated and did not commit return to FREE (R456). -/
def Landing.reclaim (l : Landing) (serial : Nat) : Landing :=
  let mine : List (Nat × Nat) := l.allocated.filter fun a => a.2 == serial
  { l with free := l.free ++ mine.map (·.1), allocated := l.allocated.filter fun a => a.2 != serial }

/-- One team is killed (R456): accepted requests complete, the rest is dropped; rays stop; records not committed return; a
KIND 3 entry is posted while the ring is in use, and holds the slots until it is answered. DEDUCED (log entry 41), unsafe for
entries of such a team. -/
def State.killOne (s : State) (serial gs cause : Nat) (word fpc frame : Nat) : State :=
  match s.team? serial with
  | none => s
  | some t =>
    if t.ended then s
    else
      let here := s.places serial
      let mine := fun (x : Nat) => here.contains x
      let s := s.finishBegun (s.ops.filter fun (o : Op) => mine o.gs)
      let s := (s.rays.filter fun (r : Ray) => mine r.gs).foldl (fun (s : State) r => s.killRay r) s.parkRay
      let ctx := match s.grid? t.grid with | some g => g.ctx | none => 0
      let gridId := match s.grid? t.grid with | some g => fieldAt g.packet 0x14 4 | none => 0
      let s := { s with
        faults := s.faults.filter fun (f : FaultRec) => !(mine f.gs && decide (f.kind < 3))
        landings := s.landings.map fun (l : Landing) => l.reclaim serial }
      let s := s.retireTeam serial
      let s := s.modTeam serial fun t => { t with killed := true, killedSeq := if s.ringInUse then some serial else none }
      let count := fun (g : Grid) => { g with kills := g.kills + 1, status := max g.status 2 }
      let s := s.modGrid t.grid count
      let s := if t.launch = t.grid then s else s.modGrid t.launch count
      if s.ringInUse then
        let entry : FaultRec := { kind := 3, cause := cause, ctx := ctx, grid := gridId, gs := gs, vaddr := fpc
                                  paddr := 0, record := frame, info := word, time := s.now, target := serial
                                  mask := 0, seq := none }
        { s with faults := s.faults ++ [entry] }
      else s

/-- The address of the byte of SAMAP that holds bit u (R405). -/
def State.mapVa (s : State) (ctx u : Nat) : Nat := s.ctxField ctx 0x20 8 + u / 8

/-- Bit u of SAMAP written; none where the map cannot be reached (R405, R407, R474). -/
def State.mapUnit (s : State) (grid ctx u : Nat) (v : Bool) : Option State :=
  let va := s.mapVa ctx u
  match s.deviceRead grid ctx va 1 with
  | some bs =>
    let b := leNat bs
    let m := 2 ^ (u % 8)
    s.deviceWrite grid ctx va (leBytes 1 (if v then b ||| m else b &&& (255 - m)))
  | none => none

/-- A context is damaged (R416, R474): the record says so, every team of the grid is killed with STATUS 3 and its save unit
freed, and MSI-X vector 2 is signalled. An access to a failed stack that it comes of is reported (R467, R469). -/
def State.damage (s : State) (ctx grid gs addr : Nat) : State :=
  let rec0 := s.ctxPa ctx
  let s := s.park.countFailedVa grid ctx addr 4096
  let s := s.wrRecord (rec0 + 0x28) 4 (s.recordNat (rec0 + 0x28) 4 ||| 2)
  let s := s.wrRecord (rec0 + 0x2C) 2 (s.realSlot gs)
  let s := s.wrRecord (rec0 + 0x30) 8 addr
  let s := (s.teams.filter fun t => t.grid == grid && !t.ended).foldl (fun (s : State) t =>
    let s := s.killOne t.serial gs 0 0 0 0
    match t.unit with
    | some u =>
      let s := s.modTeam t.serial fun t => { t with unit := none, saved := false }
      if s.deviceWaits grid ctx (s.mapVa ctx u) 1 then { s with late := s.late ++ [.unit grid ctx gs u] }
      else (s.mapUnit grid ctx u false).getD s
    | none => s) s
  (s.modGrid grid fun g => { g with status := max g.status 3 }).signal 2

/-- Bit u of SAMAP cleared, when its stack is up; a failure damages the context (R407, R469, R474). -/
def State.clearUnit (s : State) (grid ctx gs u : Nat) : State :=
  if s.deviceWaits grid ctx (s.mapVa ctx u) 1 then { s with late := s.late ++ [.unit grid ctx gs u] }
  else
    match s.mapUnit grid ctx u false with
    | some s => s
    | none => s.damage ctx grid gs (s.mapVa ctx u)

/-- A save unit is freed (R407). -/
def State.freeUnit (s : State) (serial : Nat) : State :=
  match s.team? serial with
  | none => s
  | some t =>
    match t.unit, s.grid? t.grid with
    | some u, some g =>
      (s.modTeam serial fun t => { t with unit := none, saved := false }).clearUnit t.grid g.ctx (t.home.headD 0) u
    | _, _ => s

/-- A team is killed, with the other teams of its cluster launch (R455); a save unit it holds is freed (R407). -/
def State.killTeam (s : State) (serial gs cause : Nat) (word fpc frame : Nat) : State :=
  match s.team? serial with
  | none => s
  | some t =>
    let ts := s.clusterTeams t
    let s := ts.foldl (fun s u => s.killOne u.serial gs cause word fpc frame) s.park
    ts.foldl (fun (s : State) u => s.freeUnit u.serial) s

end Sys2Proof.Machine
end

