-- ==== Sys2Proof/Machine/Handles.lean ====
section
/-!
DEFINITION. Handles (R223) and what an atomic or engine instruction checks in its scalars and control words at issue: the
limits of check 2, the registers its words imply, and the handle (R91, R193 to R196, R226, R227, R231, R233, R237, R238,
R240, R243, R245, R249, R252).
-/
namespace Sys2Proof.Machine

/-- The team of the issuing group. -/
def State.myTeam (s : State) : Option Team := s.team? s.me.team

/-- The grid of the issuing group. -/
def State.myGrid (s : State) : Option Grid := s.gridOf s.me.team

/-- The key of the issuing group's grid; a number no grid has where there is none. -/
def State.myGridKey (s : State) : Nat := match s.myTeam with | some t => t.grid | none => 0

/-- TBYTES of the issuing team. -/
def State.myBytes (s : State) : Nat := match s.myTeam with | some t => t.tbytes | none => 0

/-- A field of the launch packet of the issuing group's grid (R388). -/
def State.packetField (s : State) (off n : Nat) : Nat :=
  match s.myGrid with
  | some g => fieldAt g.packet off n
  | none => 0

/-- The handle's parts in a quad: BASE, the kind-specific word, bits 27:0 of the last word, KIND (R223). -/
structure Handle where
  base : Nat
  word : Nat
  low : Nat
  kind : Nat
deriving DecidableEq, Repr

/-- The handle in a quad of scalars. -/
def State.handle (s : State) (h : Nat) : Handle :=
  let w3 := (s.rdS (h + 3)).toNat
  { base := (s.rdS64 h).toNat, word := (s.rdS (h + 2)).toNat, low := w3 % 2 ^ 28, kind := w3 / 2 ^ 28 }

/-- DST of a copy handle. -/
def Handle.dst (h : Handle) : Nat := h.word + h.low % 2 ^ 25 * 2 ^ 32

/-- The alignment of BASE by kind (R223). -/
def handleAlign : Nat → Nat
  | 1 => 64 | 2 => 4 | 3 => 64 | 4 => 64 | 5 => 256 | 6 => 16 | 7 => 16 | _ => 4

/-- A texture handle's word is one R255 allows. -/
def textureOk (w : Nat) : Bool :=
  let lw := w % 16
  let lh := w / 16 % 16
  let lv := w / 256 % 16
  decide (lw ≤ 14) && decide (lh ≤ 14) && decide (1 ≤ lv) && decide (lv ≤ max lw lh + 1)
  && decide (w / 4096 % 4 ≤ 2) && decide (w / 16384 ≤ 1)

/-- Reserved bits and count fields by kind (R223). -/
def Handle.fieldsOk (h : Handle) : Bool :=
  match h.kind with
  | 1 => decide (h.word < 2 ^ 24) && decide (0 < h.word) && h.word % 16 == 0 && h.low == 0
  | 2 => decide (h.base < 2 ^ 57) && decide (h.low < 2 ^ 25)
  | 3 => h.word == 0 && h.low == 0
  | 4 => h.low == 0
  | 5 => textureOk h.word && h.low == 0
  | 6 => decide (0 < h.word % 65536) && decide (0 < h.word / 65536) && h.low == 0
  | 7 => decide (h.word < 2) && h.low == 0
  | 8 => decide (1 ≤ h.word) && decide (h.word ≤ 2048) && h.low == 0
  | _ => true

/-- The HANDLE subcode of a handle where a kind is taken: 0, 2, 1, 3 in that order (R223). -/
def Handle.bad (h : Handle) (kind : Nat) : Option Nat :=
  if h.kind = 0 then some 0
  else if h.kind ≠ kind then some 2
  else if h.base % handleAlign kind ≠ 0 ∨ (kind = 2 ∧ h.dst % 4 ≠ 0) then some 1
  else if h.fieldsOk then none
  else some 3

/-- A landing descriptor breaks R397, or names no consumer. -/
def descriptorBreaks (d : List Byte) : Bool :=
  fieldAt d 0x18 8 == 0 || fieldAt d 0x18 8 % 128 != 0 || fieldAt d 0 8 % 16 != 0
  || fieldAt d 0xA 2 == 0 || fieldAt d 8 2 % 16 != 0 || fieldAt d 8 2 == 0 || decide (256 < fieldAt d 8 2)
  || decide (32 < fieldAt d 0xC 4) || (d.drop 0x28).any (· != 0)

/-- The descriptor at a handle's BASE breaks R397; one that cannot be read is the operation's own matter (R225). -/
def State.descriptorBad (s : State) (base : Nat) : Bool :=
  match s.engineRead s.myGridKey s.me.ctx base 64 with
  | .error _ => false
  | .ok d => descriptorBreaks d

/-- The graph scheduler holds the landing of a descriptor, so its descriptor is not read again (R398). -/
def State.landingHeld (s : State) (ctx base : Nat) : Bool := s.landings.any fun l => l.key == base && l.ctx == ctx

/-- The handle an instruction takes and its kind; the quad of a KDRN in register mode is none. -/
def State.handleOf (s : State) : Instr → Option (Nat × Nat)
  | .skid _ h _ => some (h, 2)
  | .skidg _ h _ _ => some (h, 2)
  | .kmma _ h _ _ => some (h, 1)
  | .kmmaPair _ h _ _ => some (h, 1)
  | .kdrn d h _ _ => if (s.rdSd d).toNat / 2 ^ 14 % 2 = 0 then some (h, 1) else none
  | .cruz _ h _ _ => some (h, 4)
  | .crld _ h _ => some (h, 8)
  | .cnaj _ h _ _ => some (h, 7)
  | .ralc _ h _ _ => some (h, 3)
  | .rcmt h _ _ => some (h, 3)
  | .rget _ h _ => some (h, 3)
  | .prim h _ _ => some (h, 6)
  | .tex _ h _ _ => some (h, 5)
  | _ => none

/-- The HANDLE subcode of an instruction (check 7 of R91, R397). -/
def State.handleTrap (s : State) (i : Instr) : Option Nat :=
  match s.handleOf i with
  | none => none
  | some (h, kind) =>
    let hd := s.handle h
    match hd.bad kind with
    | some c => some c
    | none =>
      if kind = 3 && !s.landingHeld s.me.ctx hd.base && s.descriptorBad hd.base then some 3 else none

/-- A completion-barrier offset is none, or 8-aligned within the team's bytes (R209, R237). -/
def State.barrierOk (s : State) (off : Nat) : Bool :=
  off == 0xFFFFFFFF || (off % 8 == 0 && decide (off + 8 ≤ s.myBytes))

/-- Two ranges of bytes share a byte. -/
def overlap (a n b m : Nat) : Bool := decide (a < b + m) && decide (b < a + n)

/-- Kerf operand formats by code (R47): element (0 F32 … 11 U4), scale kind, block length, band. -/
def kerfFormat (code : Nat) : Option (Nat × Nat × Nat × Bool) :=
  if code < 12 then some (code, 0, 1, false)
  else if code < 18 then some ([3, 4, 5, 6, 7, 8].getD (code - 12) 0, 1, 32, false)
  else if code < 22 then some ([7, 5, 6, 10].getD (code - 18) 0, 2, 64, false)
  else if code < 24 then some ([7, 10].getD (code - 22) 0, 3, 8, false)
  else if code < 28 then some ([7, 10, 6, 5].getD (code - 24) 0, 3, 8, true)
  else none

/-- The K-step class of an element (R48): 0 F32, 1 16-bit, 2 8- and 6-bit, 3 4-bit. -/
def kerfClass (elem : Nat) : Nat :=
  if elem = 0 then 0 else if elem ≤ 2 then 1 else if elem = 7 ∨ elem = 10 ∨ elem = 11 then 3 else 2

/-- A group of the team that is resident and not ended (R227, R308). -/
def State.memberLive (s : State) (t : Team) (gid : Nat) : Bool := (s.liveIds t.serial).contains gid

/-- The quad that a K-step's control word names, and its groups of a team (R227). -/
def State.quadOf (s : State) (d : Nat) : Nat := (s.rdSd (d + 2)).toNat / 2 ^ 8 % 8
def State.quadGroups (s : State) (team d : Nat) : List Group := (s.liveGroups team).filter fun g => g.gid / 4 == s.quadOf d

/-- KMMA's own limits (R226, R227, R231). -/
def State.kmmaIllegal (s : State) (pair : Bool) (d : Nat) : Bool :=
  match s.myTeam with
  | none => true
  | some t =>
    let desc := (s.rdSd64 d).toNat
    let c := (s.rdSd (d + 2)).toNat
    let fa := kerfFormat (desc % 32)
    let fb := kerfFormat (desc / 32 % 32)
    let nb := c / 2 ^ 11 % 4
    let tr := c / 2 ^ 13 % 2 == 1
    decide (t.tiles.length ≤ c % 16) || decide (desc / 2 ^ 10 % 64 ≠ 0) || decide (c / 2 ^ 14 ≠ 0)
    || (match fa, fb with
        | some x, some y => kerfClass x.1 != kerfClass y.1
        | _, _ => true)
    || !((List.range 4).all fun i => s.memberLive t (4 * s.quadOf d + i))
    || (tr && (s.d == 0 || (nb + 1) % (1 + s.d) != 0))
    || (pair && t.cluster.isNone)

/-- KDRN's own limits (R226, R233). -/
def State.kdrnIllegal (s : State) (d h a : Nat) : Bool :=
  match s.myTeam with
  | none => true
  | some t =>
    let c := (s.rdSd d).toNat
    let fmt := c / 16 % 16
    let rm := c / 256 % 8
    let reg := c / 2 ^ 14 % 2 == 1
    let nb := c / 2 ^ 17 % 4
    let tr := c / 2 ^ 15 % 2 == 1
    let nreg := c / 2 ^ 25 % 32
    let col := c / 2 ^ 19 % 64
    let res := c / 2 ^ 13 % 2 == 1
    decide (t.tiles.length ≤ c % 16) || decide (c / 2 ^ 30 ≠ 0) || decide (5 < rm) || decide (12 < fmt)
    || (if reg then
          h != 0 || decide (2 < fmt) || res || decide (64 < col + (nreg + 1) * (if fmt = 0 then 1 else 2))
          || decide (111 < a + nreg) || (tr && decide (4 < (nb + 1) * (1 + s.d)))
        else a != 0 || nreg != 0 || col != 0 || (res && decide (2 < fmt)))

/-- SORTK's own limits (R249). -/
def State.sortkIllegal (s : State) (d h : Nat) : Bool :=
  match s.myTeam with
  | none => true
  | some t =>
    let c := (s.rdSd d).toNat
    let gb := c % 32
    let ng := c / 32 % 16
    decide (c / 2 ^ 14 ≠ 0) || decide ((s.rdS (h + 3)).toNat / 2 ^ 16 ≠ 0) || ng == 0 || decide (8 < ng)
    || decide (24 < c / 512 % 32) || decide (t.slots.length < gb + ng)
    || decide (s.me.gid < gb) || decide (gb + ng ≤ s.me.gid)
    || !(s.me.frags.all fun f => f.st == .gone) || !s.me.parked.isEmpty

/-- A program id is bound in the grid's program table (R245). -/
def State.programEntry (s : State) (grid ctx id : Nat) : Option (Nat × Nat) :=
  match s.grid? grid with
  | none => none
  | some g =>
    let ptab := fieldAt g.packet 0x58 8
    if ptab = 0 then none
    else
      match s.deviceRead grid ctx (ptab + 16 * id) 16 with
      | none => none
      | some e => if fieldAt e 8 4 / 2 ^ 31 = 1 then some (fieldAt e 0 8, fieldAt e 8 4 % 4096) else none

/-- The slot width of an FCVT destination format (R161). -/
def slotWidth (fmt : Nat) : Nat :=
  if fmt = 0 ∨ fmt = 8 ∨ fmt = 9 then 32
  else if fmt = 1 ∨ fmt = 2 ∨ fmt = 10 ∨ fmt = 11 then 16
  else if fmt = 7 then 4
  else 8

/-- FCVT's slot selector does not fit its types (R161). -/
def slotIllegal (et b : Nat) : Bool :=
  let ns := if et < 3 then 1 else if et < 7 then 2 else 4
  let slots := 32 / slotWidth (b % 16)
  let g := min ns slots
  let sel := b / 16
  (ns == slots && sel != 0) || (decide (slots < ns) && decide (ns < (sel + 1) * g))
  || (decide (ns < slots) && decide (slots < (sel + 1) * g))

/-- The number under which a lane's record number is kept with the captured operands: no vector register has it. -/
def recordKey (lane : Nat) : Nat := vkey 120 0 lane

/-- The record numbers of the active lanes: how many active lanes lie below each, as at the first issue (R238). -/
def State.recordNumber (s : State) (l : Nat) : Nat :=
  match s.ov.bind fun c => lookup c.vec (recordKey l) with
  | some k => k.toNat
  | none => popcount (s.active &&& (laneBit l - 1))

/-- What an instruction's scalars, or MR, forbid at check 2 of R91, where its entry says so. -/
def State.controlIllegal (s : State) : Instr → Bool
  | .fcvt _ _ b => slotIllegal (mrEt s.mr) b
  | .minidx _ _ _ => decide (2 < mrEt s.mr)
  | .tlin _ _ b => decide (64 < b + s.d)
  | .atom d _ k _ =>
    let c := (s.rdS (k + 2)).toNat
    let n := (if atomType c = 3 then 2 else 1) * (if atomOp c = 1 then 2 else 1)
    !atomAllowed false c || decide (d % n ≠ 0) || decide (112 < d + n)
    || decide (s.me.alloc < d + n)
  | .red d _ k _ =>
    let c := (s.rdS (k + 2)).toNat
    let n := (if atomType c = 3 then 2 else 1) * (if atomOp c = 1 then 2 else 1)
    !atomAllowed true c || decide (d % n ≠ 0 ∧ n ≠ 1) || (decide (1 < n) && decide (112 < d + n))
    || (decide (d < 112) && decide (s.me.alloc < d + n))
  | .ppt i => decide (s.packetField 0x38 4 ≤ i)
  | .skid d h _ =>
    let n := (s.rdSd d).toNat
    let hd := s.handle h
    n == 0 || n % 4 != 0 || decide (2 ^ 30 < n) || !s.barrierOk (s.rdSd (d + 1)).toNat
    || (hd.kind == 2 && overlap hd.base n hd.dst n)
  | .skidg d h a _ =>
    let n := (s.rdSd d).toNat
    let hd := s.handle h
    n == 0 || n % 4 != 0 || decide (256 < n) || !s.barrierOk (s.rdSd (d + 1)).toNat
    || (hd.kind == 2 && (lanesOf s.active).any fun l =>
          overlap ((hd.base + (s.rdV64 a l).toNat) % 2 ^ 64) n (hd.dst + s.recordNumber l * n) n)
  | .kmma d _ _ _ => s.kmmaIllegal false d
  | .kmmaPair d _ _ _ => s.kmmaIllegal true d
  | .kdrn d h a _ => s.kdrnIllegal d h a
  | .kzero t _ => decide ((s.myTeam.map (·.tiles.length)).getD 0 ≤ t)
  | .kstat _ t _ => decide ((s.myTeam.map (·.tiles.length)).getD 0 ≤ t)
  | .crld d _ _ =>
    let id := (s.rdSd d).toNat
    decide (255 < id) || s.packetField 0x58 8 == 0 || (s.programEntry s.myGridKey s.me.ctx id).isSome
  | .cnop d _ _ =>
    let c := (s.rdSd d).toNat
    let k := c % 32
    decide (c / 2 ^ 21 ≠ 0) || (k != 0 && (decide (k < 4) || decide (16 < k)))
  | .cncl d _ _ => decide (1 < (s.rdSd d).toNat)
  | .sortk d h _ _ => s.sortkIllegal d h
  | .cbar => match s.myTeam with | some t => t.cluster.isNone | none => true
  | .ldcb a b =>
    let off := (s.rdS a).toNat
    let n := (s.rdS b).toNat
    off % 8 != 0 || decide (s.myBytes < off + 8) || n == 0 || decide (65535 < n)
  | .cbwait a _ =>
    let off := (s.rdS a).toNat
    off % 8 != 0 || decide (s.myBytes < off + 8)
  | .bar _ b => decide (32 < (s.rdS b).toNat)
  | .bara _ _ b => decide (32 < (s.rdS b).toNat)
  | .mwait _ => s.me.watch.isNone && s.fr.watching.isNone
  | _ => false

/-- Registers, by `regCode` numbers, that an instruction's control word adds to those its word names (R195, R233, R249). -/
def State.impliedRegs (s : State) : Instr → List Nat × List Nat
  | .atom d _ k _ =>
    let c := (s.rdS (k + 2)).toNat
    let n := (if atomType c = 3 then 2 else 1) * (if atomOp c = 1 then 2 else 1)
    ((List.range n).map (d + ·), if atomType c = 3 then [d, d + 1] else [d])
  | .red d _ k _ =>
    let c := (s.rdS (k + 2)).toNat
    let n := (if atomType c = 3 then 2 else 1) * (if atomOp c = 1 then 2 else 1)
    (if d < 112 then (List.range n).map (d + ·) else [], [])
  | .kdrn d _ a _ =>
    let c := (s.rdSd d).toNat
    ([], if c / 2 ^ 14 % 2 = 1 then (List.range (c / 2 ^ 25 % 32 + 1)).map (a + ·) else [])
  | .tlin _ _ b => ((List.range s.d).map (128 + b + ·), [])
  | .sortk _ h _ _ =>
    let bm := (s.rdS64 (h + 2)).toNat * 2 ^ 64 + (s.rdS64 h).toNat
    ([], (List.range 112).filter (fun r => Nat.testBit bm r) ++ (List.range 7).map (193 + ·))
  | _ => ([], [])

end Sys2Proof.Machine
end

