-- ==== Sys2Proof/Machine/Joins.lean ====
section
/-!
DEFINITION. Fragments that split, arrive at joins, merge and leave (R29 to R31, R106 to R108, R117, R297 to R300). The
functions from `State.gather` on keep every fragment of the issuing group among the group's own.
-/
namespace Sys2Proof.Machine

/-- The lanes a fragment holds: EXEC and CLR (R29). -/
def Frag.owned (f : Frag) : Mask := f.exec ||| f.clr

/-- The innermost join of a set of lanes: the most recent record or entry whose mask holds them (R106). -/
def Group.inner (g : Group) (own : Mask) : Option Join :=
  if own = 0 then none else g.joins.find? fun j => own &&& ~~~j.mask == 0

/-- The two name one record or entry. -/
def Join.same (a b : Join) : Bool := a.spill == b.spill && a.slot == b.slot

/-- A function applied to one record or entry. -/
def Group.modJoin (g : Group) (j : Join) (f : Join → Join) : Group :=
  { g with joins := g.joins.map fun x => if x.same j then f x else x }

/-- The record or entry removed. -/
def Group.dropJoin (g : Group) (j : Join) : Group := { g with joins := g.joins.filter fun x => !x.same j }

/-- The fragments that wait at a join. -/
def Group.members (g : Group) (j : Join) : List Frag :=
  g.frags.filter fun f =>
    (f.st == .joined || f.st == .heldOverflow) && (match g.inner f.owned with | some x => x.same j | none => false)

/-- The records in use and the depth of the overflow stack (R32). -/
def Group.splitRecords (g : Group) : Nat := (g.joins.filter fun j => !j.spill).length
def Group.overDepth (g : Group) : Nat := (g.joins.filter fun j => j.spill).length

/-- The lowest free record. -/
def Group.freeSlot (g : Group) : Nat :=
  ((List.range 8).find? fun i => !(g.joins.any fun j => !j.spill && j.slot == i)).getD 0

/-- The lowest free overflow entry. -/
def Group.freeSpill (g : Group) : Nat :=
  ((List.range 16).find? fun i => !(g.joins.any fun j => j.spill && j.slot == i)).getD 0

/-- The issuing fragment put among the group's own. -/
def State.gather (s : State) : State :=
  { s with me := s.me.rejoin s.fr, fr := { Frag.empty with st := .gone } }

/-- The deferred subset of an overflow entry becomes a fragment (R108). -/
def State.startDeferred (s : State) (j : Join) (last : Nat) : State × Option Nat :=
  let f : Frag :=
    { Frag.empty with
      id := s.me.nextFrag, pc := j.dpc, mr := j.mr, exec := j.dmask, links := j.links, st := .running, last := last }
  (s.modMe fun g => { (g.modJoin j fun x => { x with dstate := 1 }) with nextFrag := g.nextFrag + 1, frags := f :: g.frags },
    some f.id)

/-- The fragments of a join merge into one with the record's mask, MR and CLR (R27, R31, R108); its operations are the
merged fragment's, and so are their windows. Its link stack, which no rule gives, is the one at the split, at whose depth the
join lies: DESIGN CHOICE (log entry 15), unsafe where a fragment has come through EXECW at another depth. -/
def State.mergeAt (s : State) (j : Join) (addr : Addr) (fs : List Frag) : State × Option Nat :=
  let id := s.me.nextFrag
  let f : Frag :=
    { Frag.empty with
      id := id, pc := addr, mr := j.mr, exec := j.mask, clr := j.clr, links := j.links, st := .running
      last := fs.foldl (fun n x => min n x.last) s.me.issued
      wins := fs.flatMap (·.wins), traps := fs.flatMap (·.traps), code := fs.findSome? (·.code) }
  let gone : Nat → Bool := fun n => fs.any fun x => x.id == n
  let s := s.modMe fun g =>
    { (g.dropJoin j) with nextFrag := g.nextFrag + 1, frags := f :: g.frags.filter fun x => !gone x.id }
  ({ s with ops := s.ops.map fun (o : Op) => if o.gs == s.me.gs && gone o.frag then { o with frag := id } else o }, some id)

/-- A join is looked at again after an arrival or a departure (R29, R108): the answer names a fragment that begins to run. A record
whose every lane has left the group is dropped; the lanes of the CLR that it keeps, of which no rule says what becomes, stay in
the masks of outer joins and run in no fragment: DESIGN CHOICE (log entry 15), unsafe. -/
def State.settleJoin (s : State) (j : Join) : State × Option Nat :=
  match s.me.joins.find? fun x => x.same j with
  | none => (s, none)
  | some j =>
    let fs := s.me.members j
    if j.mask = 0 then (s.modMe fun g => g.dropJoin j, none)
    else if j.spill && j.dstate == 0 then
      -- the taken subset has arrived, or has left entirely
      if !fs.isEmpty || j.mask &&& ~~~j.dmask == 0 then
        s.startDeferred j (fs.foldl (fun n x => min n x.last) s.me.issued)
      else (s, none)
    else if j.mask &&& ~~~j.wait == 0 && !fs.isEmpty then
      match j.addr, j.arrival with
      | some a, _ => s.mergeAt j a fs
      | none, some a => s.mergeAt j a fs
      | none, none => (s, none)
    else (s, none)

/-- A fragment waits at a join with some lanes (R29, R108). -/
def State.waitAt (s : State) (id : Nat) (j : Join) (lanes : Mask) (arrival : Option Addr) : State × Option Nat :=
  let st : FragState := if j.spill && j.dstate == 0 then .heldOverflow else .joined
  let s := s.modMe fun g =>
    { (g.modJoin j fun x => { x with wait := x.wait ||| lanes, arrival := arrival <|> x.arrival }) with
      frags := g.frags.map fun f => if f.id == id then { f with st := st } else f }
  s.settleJoin j

/-- A fragment stands at its innermost join's address at the join's depth (R108, R298); one that has stopped at a PPT there, whose
join a SYNC gives its address meanwhile, does too. -/
def Group.atJoin (g : Group) (f : Frag) : Option Join :=
  if (f.st == .running || f.st == .stopped) && !f.held && f.inject.isEmpty && f.exec != 0 then
    match g.inner f.owned with
    | some j => if j.addr == some f.pc && j.depth == f.links.length then some j else none
    | none => none
  else none

/-- A fragment that has reached its join waits there, and so does, in turn, what its arrival sets running. -/
def State.arrive (s : State) (id : Nat) : Nat → State
  | 0 => s
  | n + 1 =>
    match s.me.frags.find? fun f => f.id == id with
    | none => s
    | some f =>
      match s.me.atJoin f with
      | none => s
      | some j =>
        match s.waitAt id j f.owned none with
        | (s, some next) => s.arrive next n
        | (s, none) => s

/-- Joins pass at most this often in one step: 8 records and 16 entries, each of which can set one fragment running and
then merge. -/
def joinFuel : Nat := 64

/-- The issuing fragment waits where it has reached its join. -/
def State.settleArrival (s : State) : State :=
  match s.me.atJoin s.fr with
  | some _ => s.gather.arrive s.fr.id joinFuel
  | none => s

/-- Two fragments wait where they have reached their joins. -/
def State.settlePair (s : State) (child : Nat) : State :=
  let at2 := s.me.frags.any fun f => f.id == child && (s.me.atJoin f).isSome
  if at2 then (s.gather.arrive child joinFuel).arrive s.fr.id joinFuel else s

/-- Every fragment of the group waits that stands at its innermost join's address, as siblings may where a SYNC has just given the
join its address (R108, R109). -/
def State.settleAll (s : State) : State :=
  match s.me.frags.filter fun f => (s.me.atJoin f).isSome with
  | [] => s
  | fs => (fs.foldl (fun (s : State) f => s.arrive f.id joinFuel) s.gather).arrive s.fr.id joinFuel

/-- A child that stands at its join waits there, while the issuing fragment, which the join awaits, goes on (R108, R114). -/
def State.settleChild (s : State) (child : Nat) : State :=
  match s.me.frags.find? fun f => f.id == child with
  | none => s
  | some f =>
    match s.me.atJoin f with
    | some j => (s.waitAt child j f.owned none).1
    | none => s

/-- A list of joins looked at again. -/
def State.settleJoins (s : State) : List Join → State
  | [] => s
  | j :: js =>
    match s.settleJoin j with
    | (s, some id) => (s.arrive id joinFuel).settleJoins js
    | (s, none) => s.settleJoins js

/-- Some lane of the group still runs, is parked, or awaits an overflow entry; HELD and STOPPED lanes run on (R300). -/
def Group.hasLanes (g : Group) : Bool :=
  (g.frags.any fun f => f.exec != 0 && (f.st == .running || f.st == .stopped))
  || !g.parked.isEmpty
  || (g.joins.any fun j => j.spill && j.dstate == 0 && j.dmask != 0)

/-- The group ends where no lane is left (R117, R300). -/
def State.checkEnd (s : State) : State := if s.me.hasLanes then s else s.endGroup s.me.gs

/-- Lanes leave the group: every fragment, every record and entry (R30, R108, R117). -/
def State.leave (s : State) (lanes : Mask) : State :=
  let s := s.gather.modMe fun g =>
    { g with
      frags := (g.frags.map fun (f : Frag) => { f with exec := f.exec &&& ~~~lanes, clr := f.clr &&& ~~~lanes }).filter
        fun f => f.owned != 0
      parked := g.parked.map fun (p : Parked) => { p with clr := p.clr &&& ~~~lanes }
      -- lanes that leave inside a handler do not return with its TRET
      handler := g.handler.map fun (h : Handler) =>
        { h with
          heldLanes := h.heldLanes &&& ~~~lanes, clr := h.clr &&& ~~~lanes
          joins := h.joins.map fun (j : Join) =>
            { j with mask := j.mask &&& ~~~lanes, wait := j.wait &&& ~~~lanes, dmask := j.dmask &&& ~~~lanes } }
      joins := g.joins.map fun (j : Join) =>
        { j with mask := j.mask &&& ~~~lanes, wait := j.wait &&& ~~~lanes, dmask := j.dmask &&& ~~~lanes } }
  (s.settleJoins s.me.joins).checkEnd

/-- A join record or overflow entry of a split (R106, R107). -/
def State.newJoin (s : State) (addr : Option Addr) (spill : Bool) (slot : Nat) (dmask : Mask) (dpc : Addr) : Join :=
  { spill := spill, slot := slot, addr := addr, depth := s.fr.links.length, mask := s.fr.exec, wait := 0, clr := s.fr.clr
    mr := s.fr.mr, links := s.fr.links, arrival := none, dmask := dmask, dpc := dpc, dstate := 0 }

/-- The split of R107: the lanes of `t` continue at `target`, the others at `next`, in a fragment of their own or deferred
in an overflow entry. There is room for it. The children are new fragments, so that no window of R85 goes on in them: DESIGN
CHOICE (log entry 11), unsafe. -/
def State.split (s : State) (t : Mask) (target next : Addr) (addr : Option Addr) : State :=
  let rest := s.fr.exec &&& ~~~t
  if s.me.splitRecords = 8 then
    let j := s.newJoin addr true s.me.freeSpill rest next
    { s with
      me := { s.me with joins := j :: s.me.joins }
      fr := { s.fr with exec := t, clr := 0, pc := target, wins := [] } }
  else
    let j := s.newJoin addr false s.me.freeSlot 0 0
    let child : Frag :=
      { Frag.empty with
        id := s.me.nextFrag, pc := next, mr := s.fr.mr, exec := rest, links := s.fr.links, st := .running
        last := s.fr.last, code := s.fr.code }
    { s with
      me := { s.me with joins := j :: s.me.joins, nextFrag := s.me.nextFrag + 1, frags := child :: s.me.frags }
      fr := { s.fr with exec := t, clr := 0, pc := target, wins := [] } }

end Sys2Proof.Machine
end

