-- ==== Sys2Proof/Machine/Ops.lean ====
section
/-!
DEFINITION. What every instruction shares: the issue checks and their order (R91, R441), the waits (R85, R88, R149, R183,
R294, R296, R447), taking a trap and returning from one (R120 to R122, R440 to R448), and the issue of an instruction
around its own effect.
-/
namespace Sys2Proof.Machine

/-! ## Registers an instruction names, and their capture -/

/-- The registers of a list of fields. -/
def expand (gs : List (Nat × Nat)) : List Nat := gs.flatMap fun g => (List.range g.2).map (g.1 + ·)

/-- The code of a register a vector field names (`Window.regs`). -/
def fieldCode (x : Nat) : Nat := if x < 112 then x else 128 + (x - 112)

/-- The scalars that an instruction's fields name as sources: a KDRN in register mode takes no handle (R233). -/
def State.scalarFields (s : State) (i : Instr) : List (Nat × Nat) :=
  match i with
  | .kdrn d _ _ _ => if (s.handleOf i).isSome then (shape i).ss else [(d, 8)]
  | i => (shape i).ss

/-- The vector registers that an instruction's fields name as sources of the issuing group: the B registers of a K-step are those of its
quad, which the group need not belong to (R227, R228). -/
def State.vectorFields (s : State) (i : Instr) : List (Nat × Nat) :=
  let h := shape i
  match i with
  | .kmma d _ _ _ | .kmmaPair d _ _ _ => if s.me.gid / 4 = s.quadOf d then h.vo else []
  | _ => h.vs ++ h.vo

/-- The codes of the registers an instruction reads, its guard among them. -/
def State.readCodes (s : State) (i : Instr) : List Nat :=
  let h := shape i
  (expand (s.vectorFields i)).map fieldCode ++ (expand (s.scalarFields i)).map (128 + ·)
  ++ ((if h.guard && s.ov.isNone then mrG s.mr :: h.ps else h.ps).filter (· != 0)).map (192 + ·)
  ++ (h.qs.filter (· != 0)).map (200 + ·) ++ (s.impliedRegs i).1

/-- The codes of the registers an instruction writes: its pending set where it is of L or E format (R86). -/
def State.writeCodes (s : State) (i : Instr) : List Nat :=
  let h := shape i
  expand h.vd ++ (expand h.sd).map (128 + ·) ++ (h.pd.filter (· != 0)).map (192 + ·)
  ++ (h.qd.filter (· != 0)).map (200 + ·) ++ (s.impliedRegs i).2

/-- The vector registers an instruction reads at issue, ascending; the B registers of a Kerf operation are not (R87). -/
def State.imaged (s : State) (i : Instr) : List Nat :=
  match i with
  | .kmma .. | .kmmaPair .. => []
  | i => (List.range 112).filter fun r => (expand ((shape i).vs ++ (shape i).vo) ++ (s.impliedRegs i).1).contains r

/-- The scalars an instruction reads at issue, in the order of SCAP: a scalar of 112 to 127 once, after those of k, h and d (R446). -/
def State.scalarOrder (s : State) (i : Instr) : List Nat :=
  let h := shape i
  let ss := s.scalarFields i
  let fields := if h.path == some .ls || h.la.isNone then ss else ss.reverse
  expand fields ++ (((expand h.vs).filter (112 ≤ ·)).map (· - 112)).eraseDups

/-- The lanes for which an instruction acts: the active set, and the whole fragment for SLD and SST, which ignore the guard (R25, R26,
R142). -/
def State.actsFor (s : State) : Instr → Mask
  | .sld .. | .sst .. => s.fr.exec
  | _ => s.active

/-- The scalars that the issuing instruction reads: of one that stands twice, each word as the field that names it reads it. -/
def State.captureScalars (s : State) (i : Instr) : List (Nat × Word) :=
  let ks := s.scalarOrder i
  (List.range ks.length).map fun j =>
    let k := ks.getD j 0
    (k, if (ks.drop (j + 1)).contains k then s.rdS k else s.rdSd k)

/-- The issuing instruction with its operands as it reads them (R301, R446). -/
def State.capture (s : State) (i : Instr) : Captured :=
  { pc := s.pc, instr := i, mr := s.mr, act := s.actsFor i
    vec := (s.imaged i).flatMap fun r =>
      (List.range 32).flatMap fun l => (List.range (s.d + 1)).map fun k => (vkey r k l, s.rdVP r k l)
    scal := s.captureScalars i
    trapping := false, withdrawn := false, noFlags := (s.ov.map (·.noFlags)).getD 0 }

/-! ## Waits -/

/-- The operations of the issuing fragment that have not completed. -/
def State.myOps (s : State) : List Op :=
  s.ops.filter fun o => o.gs == s.me.gs && o.frag == s.fr.id && !o.complete

/-- The operation of a window has completed. -/
def State.opDone (s : State) (id : Nat) : Bool := match s.op? id with | some o => o.complete | none => true

/-- A window has closed on an operation that has not completed (R85). -/
def State.windowClosed (s : State) : Bool := s.fr.wins.any fun w => w.left == 0 && !s.opDone w.op

/-- The counter of a path (R183). -/
def State.pathCount (s : State) (gs : Nat) (p : Path) : Nat := (s.ops.filter fun o => o.gs == gs && o.path == some p).length

/-- The lanes of a guarded branch (R107). -/
def State.branchLanes (s : State) (p n : Nat) : Mask := s.fr.exec &&& (if n = 1 then ~~~(s.rdP p) else s.rdP p)

/-- The instruction is a BRA whose guard splits the fragment. -/
def State.splits (s : State) : Instr → Bool
  | .bra p n _ _ => let t := s.branchLanes p n; t != s.fr.exec && t != 0
  | _ => false

/-- The scalars and q predicates that an instruction writes, by code. -/
def uniformCodes (i : Instr) : List Nat :=
  (expand (shape i).sd).map (128 + ·) ++ ((shape i).qd.filter (· != 0)).map (200 + ·)

/-- A pending instruction of a sibling fragment, one that is parked or is to be issued again included, is to write a scalar or q predicate that the instruction
names (R296). -/
def State.siblingPending (s : State) (i : Instr) : Bool :=
  let named := s.readCodes i ++ s.writeCodes i
  let meets := fun (x : Instr) => (uniformCodes x).any named.contains
  (s.ops.any fun o => o.gs == s.me.gs && o.frag != s.fr.id && !o.complete && meets o.cap.instr)
  || (s.me.parked.any fun p => (p.cap :: p.rest).any fun c => meets c.instr)
  || s.me.frags.any fun f => f.id != s.fr.id && f.inject.any fun c => meets c.instr

/-- A Kerf operation of the core holds a register that the instruction writes (R87, R149). -/
def State.heldByKerf (s : State) (i : Instr) : Bool :=
  let ws := s.writeCodes i
  s.ops.any fun o => o.holds.any fun h => h.1 == s.me.gs && ws.contains h.2

/-- The images of the fragment's unfinished operations, the instruction's own among them, exceed C − 11 (R447). -/
def State.imagesFull (s : State) (i : Instr) : Bool :=
  (shape i).la.isSome
  && decide (362 / (1 + s.d) - 11 <
      (s.imaged i).length + (s.myOps.map fun o => o.cap.vec.length / (32 * (1 + s.d))).foldl (· + ·) 0)

/-- The watchdog's window of the present, numbered from 1 (R443). -/
def State.dogNow (s : State) : Nat := s.now / 1000 + 1

/-- The count of windows, the last one in which the group issued included once it has ended. DEDUCED (log entry 43), unsafe. -/
def State.dogTotal (s : State) (g : Group) : Nat :=
  if 0 < g.dogWindow && g.dogWindow < s.dogNow && !g.dogEnded then g.dogCount + 1 else g.dogCount

/-- A region of a group ends now, whether or not it has issued in the present window: that window does not count (R443). -/
def State.dogEnd (s : State) (g : Group) : Group := { g with dogWindow := s.dogNow, dogEnded := true, dogCount := 0 }

/-- The group is to take WATCHDOG (R443). -/
def State.dogDue (s : State) (g : Group) : Bool := s.wdog != 0 && decide (s.wdog.toNat ≤ s.dogTotal g)

/-- A fence of another fragment of the group holds back the instructions of a mask (R199, R201). -/
def State.behindFence (s : State) (bit : Nat) : Bool :=
  s.me.fencing.any fun f => f.1 != s.fr.id && Nat.testBit f.2.1 bit

/-- The issuing fragment is not one that takes part in issue (R199, R297, R311, R411): bit 7 of a fence's mask stands for every
instruction. -/
def State.idle (s : State) : Bool :=
  s.behindFence 7 || s.me.ended || s.fr.st != .running || s.fr.held || s.me.saved || s.me.savedScopes.isSome || s.me.fullStop

/-- The instruction waits before its checks (R85, R443). -/
def State.waitsFirst (s : State) : Bool := s.idle || s.windowClosed || s.dogDue s.me

/-- The instruction waits once its checks have passed (R88, R149, R183, R296, R447). -/
def State.waitsAfter (s : State) (i : Instr) : Bool :=
  let h := shape i
  ((h.waits || s.splits i) && !s.myOps.isEmpty)
  || s.heldByKerf i
  || (match h.path with | some p => s.pathCount s.me.gs p == 63 || s.behindFence p.num | none => false)
  || s.imagesFull i

/-! ## Issue checks -/

/-- Every register named is allocated (R13): the B registers of a K-step in each group of its quad, which holds them (R228). -/
def State.allocated (s : State) (i : Instr) : Bool :=
  let h := shape i
  match i with
  | .kmma d _ a _ | .kmmaPair d _ a _ => (s.quadGroups s.me.team d).all fun g => decide (a + 16 ≤ g.alloc)
  | _ => ((expand (h.vs ++ h.vo ++ h.vd)).filter (· < 112)).all fun r => decide (r < s.me.alloc)

/-- Vector registers that a control word implies are registers, and allocated (R13, R195, R249). -/
def State.impliedOk (s : State) (i : Instr) : Bool :=
  (((s.impliedRegs i).1 ++ (s.impliedRegs i).2).filter (· < 128)).all fun r => decide (r < s.me.alloc)

/-- MR's fields are as the instruction needs them (R23, R144). -/
def State.mrOk (s : State) (h : Shape) : Bool :=
  (match h.et with
    | .free => true
    | .byEt => decide (mrEt s.mr < 9)
    | .float => decide (2 ≤ mrEt s.mr) && decide (mrEt s.mr ≤ 4)
    | .f32 => mrEt s.mr == 2)
  && (match h.rm with
    | .never => true
    | .always => decide (mrRm s.mr < 6)
    | .underTe => !(mrTe s.mr && s.d != 0) || decide (mrRm s.mr < 6)
    | .floatEt => !(decide (2 ≤ mrEt s.mr) && decide (mrEt s.mr ≤ 4)) || decide (mrRm s.mr < 6))

/-- The plane the word names exists (R10). -/
def State.planeOk (s : State) (h : Shape) : Bool := match h.plane with | some k => decide (k < s.d) | none => true

/-- Checks 1 to 6 of R91. -/
def State.checksOk (s : State) (i : Instr) : Bool :=
  wordOk i && s.allocated i && s.impliedOk i && s.mrOk (shape i) && s.planeOk (shape i) && !s.controlIllegal i

/-- The instruction touches the pending set of a window it falls in: how far it stands after that instruction (R86, R440). Where it breaks
several windows at once, that of the oldest instruction counts: DESIGN CHOICE (log entry 11), unsafe for the subcode. -/
def State.lookahead (s : State) (i : Instr) : Option Nat :=
  let named := s.readCodes i ++ s.writeCodes i
  (s.fr.wins.find? fun w => decide (0 < w.left) && w.regs.any named.contains).map fun w => w.la - w.left + 1

/-- A trap, as the instruction or the event raises it. -/
structure Trap where
  cause : Nat
  sub : Nat
  /-- FADDR (R444). -/
  addr : Nat
  /-- RACEREC for cause 9. -/
  race : List Byte
  /-- The lanes for which the trapping instruction has still to act. -/
  lanes : Mask
deriving DecidableEq, Repr

def Trap.plain (cause sub : Nat) (lanes : Mask) : Trap := { cause := cause, sub := sub, addr := 0, race := [], lanes := lanes }

/-- The causes of R440. -/
def causePage : Nat := 1
def causePerm : Nat := 2
def causeEcc : Nat := 3
def causeIllegal : Nat := 4
def causeLookahead : Nat := 5
def causeNonuniform : Nat := 6
def causeHandle : Nat := 7
def causeAlign : Nat := 8
def causeRace : Nat := 9
def causeSplit : Nat := 10
def causeTrap : Nat := 11
def causeWatchdog : Nat := 12

/-- What the issue checks decide. -/
inductive Gate where
  | go
  | wait
  /-- A trap held for the instruction boundary is taken. -/
  | deferred (t : HeldTrap)
  | trap (t : Trap)
  /-- The transaction's own rules are broken: ILLEGAL, and no transaction remains (R216). -/
  | txBreach
  /-- The transaction aborts with a code (R217). -/
  | abort (code : Nat)
deriving DecidableEq, Repr

/-- The trap of a parked fragment, which stands at the head of the queue of its own fragment (R303). -/
def HeldTrap.inPlace (t : HeldTrap) : Bool := decide (t.cause ≤ 3) && decide (t.sub < 2 ^ 17)

/-- A held trap that may be taken now: no handler runs, the fragment stands at a boundary, and where the queue is to be
empty nothing is in flight (R225, R442, R443). -/
def State.dueTrap (s : State) : Option HeldTrap :=
  let inPlace := match s.fr.inject with | c :: _ => c.trapping | [] => false
  if (s.me.handler.isSome && !inPlace) || s.fr.watching.isSome then none
  else
    match s.fr.traps with
    | [] => none
    | t :: _ =>
      if !t.inPlace && !(s.myOps.isEmpty && s.fr.inject.isEmpty) then none else some t

/-- A held trap waits for operations to finish before anything else issues. -/
def State.dueBlocked (s : State) : Bool :=
  s.me.handler.isNone && s.fr.watching.isNone && !s.fr.traps.isEmpty && s.dueTrap.isNone && s.fr.inject.isEmpty

/-- The transaction's own rules at this PC (R216). -/
def State.txBroken (s : State) (i : Instr) : Bool :=
  let isTxa := match i with | .txa _ => true | _ => false
  match s.me.tx.st with
  | .none => (match i with | .txa _ | .txc => true | _ => false)
  | .opened t | .aborted t => if isTxa then s.pc != t + 4 else s.pc == t + 4

/-- The code with which an instruction aborts an open transaction (R217, R219). -/
def State.txForbids (s : State) (i : Instr) : Option Nat :=
  match s.me.tx.st with
  | .opened _ =>
    match i with
    | .txb _ => some (if 0 < (s.me.frags.filter fun f => f.st != .gone).length then 3 else 5)
    | i => if !(shape i).tx || s.splits i then some 3 else none
  | _ => none

/-- The issue checks in the order of R441, between the waits that come before and after them. DEDUCED (log entry 10): unsafe
where a trap and a wait compete in another order. -/
def State.gate (s : State) (i : Instr) : Gate :=
  if s.waitsFirst then .wait
  else
    match s.dueTrap with
    | some t => .deferred t
    | none =>
      if s.dueBlocked || s.siblingPending i then .wait
      else if s.txBroken i then .txBreach
      else if !s.checksOk i then .trap (Trap.plain causeIllegal 0 (s.actsFor i))
      else
        match s.lookahead i with
        | some n => .trap (Trap.plain causeLookahead n (s.actsFor i))
        | none =>
          match s.handleTrap i with
          | some n => .trap (Trap.plain causeHandle n (s.actsFor i))
          | none =>
            match s.txForbids i with
            | some c => .abort c
            | none => if s.waitsAfter i then .wait else .go

/-! ## Taking a trap -/

/-- The bytes of a join record or overflow entry (R445). -/
def Join.bytes (j : Join) : List Byte :=
  let w0 := (match j.addr with | some a => a.toNat / 4 * 4 | none => 1) + 2
  leBytes 8 w0 ++ leBytes 4 j.mask.toNat ++ leBytes 4 j.wait.toNat ++ leBytes 4 j.clr.toNat ++ leBytes 4 j.mr
    ++ leBytes 4 j.depth ++ leBytes 4 0
    ++ (if j.spill then leBytes 8 j.dpc.toNat ++ leBytes 4 j.dmask.toNat ++ leBytes 4 j.dstate else [])

/-- The split table and the overflow stack: 1,024 bytes (R445). -/
def Group.splitBytes (g : Group) : List Byte :=
  let rec1 := fun (i : Nat) =>
    match g.joins.find? fun j => !j.spill && j.slot == i with
    | some j => j.bytes
    | none => List.replicate 32 0
  let rec2 := fun (i : Nat) =>
    match g.joins.find? fun j => j.spill && j.slot == i with
    | some j => j.bytes
    | none => List.replicate 48 0
  (List.range 8).flatMap rec1 ++ (List.range 16).flatMap rec2

/-- The image of a captured register: 32 lanes of 1 + D words (R446). -/
def Captured.image (c : Captured) (d r : Nat) : List Byte :=
  (List.range 32).flatMap fun l => (List.range (d + 1)).flatMap fun k =>
    leBytes 4 ((lookup c.vec (vkey r k l)).getD 0).toNat

/-- The registers a captured instruction has images of, ascending. -/
def Captured.regs (c : Captured) : List Nat :=
  (List.range 112).filter fun r => (lookup c.vec (vkey r 0 0)).isSome

/-- The word of an instruction; of a word that is none, the word itself (R91). -/
def wordOf : Instr → Nat
  | .evIllegalWord w => w
  | i => (encode i).getD 0

/-- A replay-queue entry (R446). -/
def Captured.entry (c : Captured) (imgoff : Nat) : List Byte :=
  leBytes 8 c.pc.toNat ++ leBytes 4 (wordOf c.instr) ++ leBytes 4 c.mr ++ leBytes 4 c.act.toNat
    ++ leBytes 4 ((if c.trapping then 1 else 0) + (if c.withdrawn then 2 else 0))
    ++ leBytes 4 imgoff ++ leBytes 4 c.regs.length
    ++ (List.range 16).flatMap (fun j => leBytes 4 ((c.scal.getD j (0, 0)).2).toNat)

/-- Where a trap frame, and the images in it, begin. -/
def frameOffset : Nat := 0x4000
def imageOffset : Nat := 0xB00

/-- The offsets in the frame of the images of a queue. -/
def imageStarts (d : Nat) : Nat → List Captured → List Nat
  | _, [] => []
  | off, c :: cs => off :: imageStarts d (off + c.regs.length * 128 * (d + 1)) cs

/-- The trap frame's header: 0x000 to 0x4FF of the frame (R444, R445). -/
def State.frameHead (s : State) (t : Trap) (word : Nat) (fpc : Addr) (queue : List Captured) (nested : Bool) : List Byte :=
  leBytes 4 (t.cause + t.sub % 2 ^ 18 * 2 ^ 8 + (if nested then 2 ^ 26 else 0)) ++ leBytes 4 queue.length
    ++ leBytes 8 fpc.toNat ++ leBytes 4 s.fr.exec.toNat ++ leBytes 4 s.fr.clr.toNat ++ leBytes 4 s.fr.mr
    ++ (List.range 4).flatMap (fun i => leBytes 4 (sget 0 s.me.sregs (60 + i)).toNat)
    ++ leBytes 4 word ++ leBytes 8 t.addr ++ List.replicate 72 0
    ++ (if t.race.isEmpty then List.replicate 64 0 else t.race) ++ List.replicate 64 0
    ++ s.me.splitBytes

/-- The address of a group's context slot (R406), and of its frame. -/
def State.slotVa (s : State) (ctx gs : Nat) : Nat := s.csbase ctx + gs * 0x10000
def State.frameVa (s : State) : Nat := s.slotVa s.me.ctx s.me.gs + frameOffset

/-- What is written of a frame, each part with its address. -/
def State.frameParts (s : State) (t : Trap) (word : Nat) (fpc : Addr) (queue : List Captured) (nested : Bool) :
    List (Nat × List Byte) :=
  let va := s.frameVa
  let starts := queue.zip (imageStarts s.d (frameOffset + imageOffset) queue)
  ((va, s.frameHead t word fpc queue nested) :: (va + 0x500, starts.flatMap fun c => c.1.entry c.2)
    :: starts.map fun c => (va + c.2 - frameOffset, c.1.regs.flatMap (c.1.image s.d))).filter fun p => !p.2.isEmpty

/-- The frame written into the context slot; none where the slot cannot be written (R474). -/
def State.writeFrame (s : State) (t : Trap) (word : Nat) (fpc : Addr) (queue : List Captured) (nested : Bool) : Option State :=
  s.writeParts s.myGridKey s.me.ctx (s.frameParts t word fpc queue nested)

/-- The frame waits for a stack that is not up (R469). -/
def State.frameWaits (s : State) (t : Trap) (word : Nat) (fpc : Addr) (queue : List Captured) (nested : Bool) : Bool :=
  s.partsWait s.myGridKey s.me.ctx (s.frameParts t word fpc queue nested)

/-- The handler of the launch (R120, R388). -/
def State.trapVector (s : State) : Nat := s.packetField 0x28 8

/-- The handler starts in the trapping fragment; every other fragment is held (R120, R442). -/
def State.enterHandler (s : State) (t : Trap) (fpc : Addr) (queue : List Captured) : State :=
  let va := s.frameVa
  let h : Handler :=
    { frag := s.fr.id, frame := va, heldLanes := s.fr.exec, clr := s.fr.clr, joins := s.me.joins, queue := queue
      fpc := fpc, token := s.fr.token, tx := s.me.tx }
  let sregs := ssets 0 s.me.sregs
    [(60, BitVec.ofNat 32 va), (61, BitVec.ofNat 32 (va / 2 ^ 32)),
     (62, BitVec.ofNat 32 (t.cause + t.sub % 2 ^ 18 * 2 ^ 8)), (63, fpc.setWidth 32)]
  { s with
    ov := none
    me := { s.me with
      handler := some h, sregs := sregs, tx := Tx.idle, fencing := [], wantsScope := none, granted := false
      frags := s.me.frags.map fun (f : Frag) => { f with held := true } }
    fr := { s.fr with
      pc := BitVec.ofNat 64 s.trapVector, mr := mrReset s.d, clr := 0, wins := [], inject := [], token := none } }

/-- The operations of the issuing fragment that a trap withdraws: issued, unfinished, not begun (R447). -/
def State.withdrawn (s : State) : List Op := s.myOps.filter fun o => !o.begun

/-- Operations of the fragment that have begun and must complete before the frame is written (R447). -/
def State.undrained (s : State) : Bool := s.myOps.any fun o => o.begun

/-- The operations of a list dropped: their counters fall (R447), and what an acquire held back for them goes on (R200). -/
def State.dropOps (s : State) (os : List Op) : State :=
  { s with ops := countOut [] (s.ops.filter fun o => !os.any fun w => w.id == o.id) }.settleHolds s.me.gs

/-- The trap is taken with this queue: frame, then handler; a nested trap, or one with no vector, kills the team (R120,
R121). None while the frame waits for its stack (R469). -/
def State.raise (s : State) (t : Trap) (word : Nat) (fpc : Addr) (queue : List Captured) : Option State :=
  let nested := s.me.handler.isSome
  let code := t.cause + t.sub % 2 ^ 18 * 2 ^ 8 + (if nested then 2 ^ 26 else 0)
  let gs := s.me.gs
  if s.frameWaits t word fpc queue nested then none
  else
    match s.writeFrame t word fpc queue nested with
    | none => some (s.damage s.me.ctx s.myGridKey gs s.frameVa)
    | some s' =>
      if nested || s.trapVector == 0 then some (s'.killTeam s.me.team gs t.cause code fpc.toNat s.frameVa)
      else some (s'.enterHandler t fpc queue)

/-- Inside an open transaction a trap aborts it with code 4, and is taken with its frame PC after the TXB and an empty
queue (R219). -/
def State.raiseInTx (s : State) (t : Trap) (word : Nat) (txb : Addr) : Option State :=
  { (s.abortTx s.me.gs 4) with ov := none }.raise t word (txb + 4) []

/-- The queue of a trap that withdraws operations: these, then others, of which none is the trapping one unless it is marked so (R446,
R447). -/
def withdrawnThen (back : List Op) (rest : List Captured) : List Captured :=
  (back.map fun (o : Op) => { o.cap with withdrawn := true, trapping := false }) ++ rest

/-- Entries still to be issued again, behind a trapping one. -/
def notTrapping (rest : List Captured) : List Captured := rest.map fun c => { c with trapping := false }

/-- The trap of an instruction at issue (R120, R440, R447): the queue holds what is withdrawn, the instruction itself, and
what is still to be issued again; the frame PC is the next PC not issued. None while it has to wait. -/
def State.trapAt? (s : State) (i : Instr) (t : Trap) : Option State :=
  if s.undrained then none
  else
    let self : Captured := { s.capture i with act := t.lanes, trapping := true }
    let word := wordOf i
    match s.me.tx.st with
    | .opened txb => s.raiseInTx t word txb
    | _ =>
      let back := s.withdrawn
      let rest := match s.ov with | some _ => s.fr.inject.drop 1 | none => s.fr.inject
      let fpc := match s.ov with | some _ => s.fr.pc | none => s.fr.pc + 4
      (s.dropOps back).raise t word fpc (withdrawnThen back (self :: notTrapping rest))

/-- The trap of an instruction at issue, once it need not wait. -/
def State.trapAt (s : State) (i : Instr) (t : Trap) : State := (s.trapAt? i t).getD s

/-- A trap whose instruction has completed, or that belongs to none: TRAP, a fetch, WATCHDOG, and the traps of R225; or one in place,
whose entry heads the queue (R303). None while it has to wait. -/
def State.trapAfter? (s : State) (t : Trap) (word : Nat) (fpc : Addr) (inPlace : Bool := false) : Option State :=
  if s.undrained then none
  else
    match s.me.tx.st with
    | .opened txb => s.raiseInTx t word txb
    | _ =>
      let back := s.withdrawn
      let rest := if inPlace then s.fr.inject.take 1 ++ notTrapping (s.fr.inject.drop 1) else notTrapping s.fr.inject
      (s.dropOps back).raise t word fpc (withdrawnThen back rest)

/-- Such a trap, once it need not wait. -/
def State.trapAfter (s : State) (t : Trap) (word : Nat) (fpc : Addr) : State := (s.trapAfter? t word fpc).getD s

/-- A trap that an operation of the fragment raises when it performs: RACE (R180, R339). The operation stands in the queue
as the trapping one; what the fragment issued since and has not begun is withdrawn behind it. -/
def State.trapOp (s : State) (o : Op) (t : Trap) : State :=
  if s.undrained then s
  else
    match s.me.tx.st with
    | .opened txb => (s.raiseInTx t (wordOf o.cap.instr) txb).getD s
    | _ =>
      let back := s.withdrawn
      let mark := fun (x : Op) =>
        if x.id = o.id then { x.cap with trapping := true, withdrawn := false, act := t.lanes }
        else { x.cap with withdrawn := true, trapping := false }
      ((s.dropOps back).raise t (wordOf o.cap.instr) s.fr.pc (back.map mark ++ notTrapping s.fr.inject)).getD s

/-- A held trap is taken (R225, R303, R442): one in place has the lanes and the word of the entry that heads the queue. -/
def State.takeHeld (s : State) (t : HeldTrap) : State :=
  let head := s.fr.inject.headD Captured.none
  let tr : Trap :=
    { cause := t.cause, sub := t.sub, addr := if t.inPlace || t.cause == causeRace then t.addr else 0, race := t.race
      lanes := if t.inPlace then head.act else 0 }
  let word := if t.inPlace then wordOf head.instr else t.word
  let s' := { s with ov := none, fr := { s.fr with traps := s.fr.traps.drop 1 } }
  (s'.trapAfter? tr word s.fr.pc t.inPlace).getD s

/-! ## Returning from a trap -/

/-- An entry of the queue as the frame now holds it (R446, R448): the word read anew, captured values by the registers the
original named. -/
def Captured.reread (c : Captured) (entry : List Byte) (images : List Byte) (d : Nat) : Option Captured :=
  if fieldAt entry 0x14 4 / 4 % 2 = 1 then none
  else
    let i := match decodeWord (fieldAt entry 8 4) with
      | .ok i => i
      | .error _ => .evIllegalWord (fieldAt entry 8 4)
    let regs := c.regs
    some { c with
      instr := i
      trapping := false
      withdrawn := false
      mr := fieldAt entry 0xC 4 % 2 ^ 14
      act := BitVec.ofNat 32 (fieldAt entry 0x10 4)
      vec := ((List.range regs.length).flatMap fun j =>
        (List.range 32).flatMap fun l => (List.range (d + 1)).map fun k =>
          (vkey (regs.getD j 0) k l, BitVec.ofNat 32 (fieldAt images (j * 128 * (d + 1) + 4 * (l * (1 + d) + k)) 4)))
        ++ c.vec.filter fun kw => decide (vkey 112 0 0 ≤ kw.1)
      scal := (List.range c.scal.length).map fun j =>
        ((c.scal.getD j (0, 0)).1, BitVec.ofNat 32 (fieldAt entry (0x20 + 4 * j) 4)) }

/-- The queue read back from the frame, entry by entry; none where the frame cannot be read. -/
def State.rereadQueue (s : State) (grid ctx frame d : Nat) : Nat → Nat → List Captured → Option (List Captured)
  | _, _, [] => some []
  | e, off, c :: cs =>
    let n := c.regs.length * 128 * (d + 1)
    match s.deviceRead grid ctx (frame + 0x500 + 96 * e) 96, s.deviceRead grid ctx (frame + off) n with
    | some entry, some images =>
      match s.rereadQueue grid ctx frame d (e + 1) (off + n) cs with
      | some rest => some ((c.reread entry images d).toList ++ rest)
      | none => none
    | _, _ => none

/-- What TRET reads of the frame waits for a stack that is not up (R469). -/
def State.returnWaits (s : State) (h : Handler) : Bool :=
  let n := (h.queue.map fun c => c.regs.length * 128 * (s.d + 1)).foldl (· + ·) 0
  let waits := fun off n => s.deviceWaits s.myGridKey s.me.ctx (h.frame + off) n
  waits 0x10 0x1C || waits 0x500 (96 * h.queue.length) || waits imageOffset n

/-- TRET's own effect (R122, R448). -/
def State.returnFrom (s : State) (h : Handler) : State :=
  let ctx := s.me.ctx
  match s.deviceRead s.myGridKey ctx (h.frame + 0x10) 0x1C, s.rereadQueue s.myGridKey ctx h.frame s.d 0 imageOffset h.queue with
  | some head, some queue =>
    let exec := BitVec.ofNat 32 (fieldAt head 0 4) &&& h.heldLanes
    let clr := BitVec.ofNat 32 (fieldAt head 4 4) &&& ~~~exec &&& (h.heldLanes ||| h.clr)
    let sregs := ssets 0 s.me.sregs
      ((List.range 4).map fun i => (60 + i, BitVec.ofNat 32 (fieldAt head (12 + 4 * i) 4)))
    { s with
      me := { s.me with
        sregs := sregs, joins := h.joins, handler := none, tx := h.tx
        parked := s.me.parked.map fun (p : Parked) => { p with inHandler := false }
        -- fragments split off inside the handler end with it
        frags := (s.me.frags.filter (·.held)).map fun (f : Frag) => { f with held := false } }
      fr := { s.fr with
        id := h.frag, exec := exec, clr := clr, mr := fieldAt head 8 4 % 2 ^ 14, pc := h.fpc, wins := []
        inject := queue, token := h.token } }
  | _, _ => s.damage ctx s.myGridKey s.me.gs h.frame

/-! ## Issue -/

/-- What an instruction's own effect comes to. -/
inductive Ran where
  /-- It has performed, and the fragment stands where it goes on. -/
  | done (s : State)
  /-- It waits; what it has written meanwhile, if anything. -/
  | wait (s : State)
  /-- It traps, and has performed nothing. -/
  | trap (t : Trap)
  /-- It traps from the state given, in which a part of it stands (R114). -/
  | trapIn (s : State) (t : Trap)
  /-- It aborts the open transaction (R217, R219). -/
  | abort (code : Nat)

/-- The bookkeeping of an issue: windows count it, the fragment and the group have issued, YIELD's waits on the pipe end
(R85, R126, R199, R295, R395, R443). -/
def State.stamp (s : State) : State :=
  let windows : List Window := (s.fr.wins.filter fun w => decide (0 < w.left)).map fun w => { w with left := w.left - 1 }
  let core := coreOf s.me.gs
  { s with
    fr := { s.fr with
      last := s.me.issued + 1
      wins := windows.filter fun w => decide (0 < w.left) || !s.opDone w.op
      inject := match s.ov with | some _ => s.fr.inject.drop 1 | none => s.fr.inject }
    me := { s.me with
      issued := s.me.issued + 1
      waitCount := 0
      quiet := s.now
      dogCount := s.dogTotal s.me
      dogWindow := s.dogNow
      dogEnded := if s.me.dogWindow = s.dogNow then s.me.dogEnded else false }
    groups := s.groups.map fun g =>
      if g.yielded.isSome && coreOf g.gs == core && g.gs % 128 == s.me.gs % 128 then { g with yielded := none } else g }

/-- The issue of an instruction around its own effect: nothing else in the machine lets one perform. -/
def issue (i : Instr) (effect : State → Ran) (s : State) : Host.Outcome State Fault Refusal :=
  if !s.live then .fault .nothingIssues
  else
    match s.gate i with
    | .wait => .next s
    | .deferred t => .next (s.takeHeld t)
    | .trap t => .next (s.trapAt i t)
    | .txBreach =>
      match s.me.tx.st with
      | .opened _ =>
        match s.trapAt? i (Trap.plain causeIllegal 0 s.active) with
        | none => .next s
        | some t => .next (t.modMe fun g => { g with handler := g.handler.map fun h => { h with tx := Tx.idle } })
      | _ => .next (((s.modMe fun g => { g with tx := Tx.idle }).trapAt? i (Trap.plain causeIllegal 0 s.active)).getD s)
    | .abort c => .next (s.abortTx s.me.gs c)
    | .go =>
      match effect s.stamp with
      | .done t => .next t.settleArrival
      | .wait t => .next t
      | .trap t => .next (s.trapAt i t)
      | .trapIn u t => .next (({ u with fr := { u.fr with inject := s.fr.inject } }.trapAt? i t).getD s)
      | .abort c => .next (s.abortTx s.me.gs c)

/-- An instruction that has no effect but its own writes, and then goes on to the next word. -/
def simple (i : Instr) (effect : State → State) (s : State) : Host.Outcome State Fault Refusal :=
  issue i (fun s => .done (effect s).advance) s

end Sys2Proof.Machine
end

