-- ==== Sys2Proof/Machine/Parking.lean ====
section
/-!
DEFINITION. The parked fragments of a group as its context slot holds them (R301, R406, R449).
-/
namespace Sys2Proof.Machine

/-- Bytes in a layout that the spec leaves to the hardware. DESIGN CHOICE (log entry 39), safe. -/
def hiddenBytes (tick va n : Nat) : List Byte := (List.range n).map fun i => Config.hidden tick (va + i)

/-- The operands captured for a parked lane (R449): its address, the control word or the handle, then its words in register order.
What has no one address has a free one. DEDUCED (log entry 39), unsafe. -/
def Captured.laneBytes (c : Captured) (d tick va l : Nat) : List Byte :=
  let (addr, took, handle) := c.laneAddress l
  let quad := match handle with | some h => (List.range 4).flatMap fun i => leBytes 4 (c.scalar (h + i)) | .none => []
  let words := fun (rs : List Nat) n => rs.flatMap fun r => (List.range n).flatMap fun k => leBytes 4 (c.lane r k l)
  (match addr with | some a => leBytes 8 a | .none => hiddenBytes tick va 8) ++ quad
    ++ match c.instr with
      | .stt r _ _ _ => words [r] (d + 1)
      | .sst r _ _ _ => leBytes 4 (c.scalarD r)
      | .atom _ _ k _ | .red _ _ k _ =>
        let w := c.scalar (k + 2)
        leBytes 4 w ++ (valueFields c.instr w).flatMap fun r => leBytes 4 (c.source r l)
      | .stB8 .. | .stB16 .. | .stB32 .. | .stB64 .. | .stB128 .. =>
        (valueFields c.instr 0).flatMap fun r => leBytes 4 (c.source r l)
      | _ => words (c.regs.filter fun r => !took.contains r) 1

/-- What PARK and PARKOP hold, each part with its address, for a context slot at an address: the records of the parked fragments,
a MASK of 0 in each free one, and the operands of the parked lanes (R406, R449). -/
def Group.parkRanges (g : Group) (tick va : Nat) : List (Nat × List Byte) :=
  ((List.range 32).flatMap fun i =>
    let va := va + 0x2A00 + 32 * i
    match g.parked[i]? with
    | none => [(va, leBytes 4 0)]
    | some p =>
      [(va, leBytes 4 p.cap.act.toNat ++ leBytes 4 (wordOf p.cap.instr) ++ leBytes 8 p.cap.pc.toNat),
       (va + 0x14, leBytes 4 (p.cause % 256 + if p.wr then 256 else 0) ++ leBytes 8 p.addr)]
        ++ (p.seq.map fun n => (va + 0x10, leBytes 4 n)).toList)
  ++ g.parked.flatMap fun p => (lanesOf p.cap.act).map fun l =>
    let va := va + 0x2E00 + 64 * l
    (va, (p.cap.laneBytes g.tangents tick va l).take 64)

/-- A group's parked fragments written into its context slot (R301). -/
def State.writeParked (s : State) (g : Group) : Option State :=
  let grid := match s.team? g.team with | some t => t.grid | none => 0
  s.writeParts grid g.ctx (g.parkRanges s.tick (s.slotVa g.ctx g.gs))

/-- They wait for a stack that is not up (R469). -/
def State.parkedWait (s : State) (g : Group) : Bool :=
  let grid := match s.team? g.team with | some t => t.grid | none => 0
  s.partsWait grid g.ctx (g.parkRanges s.tick (s.slotVa g.ctx g.gs))

/-- They are written, once their stack is up; a slot that cannot be damages the context (R469, R474). -/
def State.mustWriteParked (s : State) (g : Group) : State :=
  if s.parkedWait g then { s with late := s.late ++ [.parked g.gs] }
  else
  match s.writeParked g with
  | some s => s
  | none =>
    s.damage g.ctx (match s.team? g.team with | some t => t.grid | none => 0) g.gs (s.slotVa g.ctx g.gs + 0x2000)

/-- Those of several groups; the answer names the slot and the block that cannot be written. -/
def State.writeAllParked (s : State) : List Group → Except (Nat × Nat) State
  | [] => .ok s
  | g :: gs =>
    match s.writeParked g with
    | some s => s.writeAllParked gs
    | none => .error (g.gs, s.slotVa g.ctx g.gs + 0x2000)

/-- The parked fragments of a group stand in its context slot as they are now, where they are not as in the state `old` (R301, R302,
R451). What a saved group has there is its image. -/
def State.keepParked (old s : State) (gs : Nat) : State :=
  match s.anyGroup? gs with
  | none => s
  | some g =>
    let was := match old.anyGroup? gs with | some g => g.parked | none => []
    if g.saved || was == g.parked then s else s.mustWriteParked g

end Sys2Proof.Machine
end

