-- ==== Sys2Proof/Machine/LoadStore.lean ====
section
/-!
DEFINITION. Scalar and vector loads and stores, tangent records, prefetch, atomics and the arming of a watch, from issue to
the operation that performs later (R142, R180 to R197, R213, R217, R219, R301, R319).
-/
namespace Sys2Proof.Machine

/-- A piece of a lane's operand: its number, its offset from the lane's address, its size and, for a store, its value. -/
structure Piece where
  part : Nat
  off : Nat
  size : Nat
  data : Nat
deriving DecidableEq, Repr

/-- What a memory instruction asks for: its lanes, whether one lane stands for all of them (R142, R213), the lanes'
addresses and pieces, the alignment, what its page must grant, and what an atomic carries besides. -/
structure MemForm where
  lanes : Mask
  one : Bool
  addr : Nat → Nat
  align : Nat
  pieces : Nat → List Piece
  need : Need
  nums : List Nat

/-- Where the pieces of a lane fall. -/
inductive Landed where
  | ok (xs : List Access)
  | fault (why : NoAccess) (va : Nat)
  | saved (team : Nat) (va : Nat)
deriving DecidableEq, Repr

/-- The lane's address of a vector access (R89). -/
def State.laneAddr (s : State) (a k l : Nat) : Nat :=
  (s.rdS64 k + if a = 127 then 0 else (s.srcV a l).signExtend 64).toNat

/-- An F32 atomic, which host memory does not take (R194). -/
def floatAtomic (nums : List Nat) : Bool := match nums with | c :: _ => atomType c == 2 | [] => false

/-- The pieces of a lane at their keys, or the first that does not reach memory (R180, R316 to R319). -/
def State.place (s : State) (f : MemForm) (l : Nat) : List Piece → Landed
  | [] => .ok []
  | p :: ps =>
    let va := (f.addr l + p.off) % 2 ^ 64
    match s.resolve s.myGridKey s.me.ctx (s.me.handler.map (·.frame)) f.need va p.size with
    | .no why => .fault why va
    | .saved team => .saved team va
    | .block off =>
      match s.place f l ps with
      | .ok xs =>
        .ok ({ lane := l, part := p.part, va := va, pa := blockKey s.me.team off, size := p.size, data := p.data
               chk := false } :: xs)
      | r => r
    | .ok key chk =>
      if floatAtomic f.nums && key / 2 ^ 48 == 1 then .fault permFault va
      else
        match s.place f l ps with
        | .ok xs =>
          .ok ({ lane := l, part := p.part, va := va, pa := key, size := p.size, data := p.data, chk := chk } :: xs)
        | r => r

/-- The lanes that access memory; an access of the whole fragment is one, whatever its lanes (R102, R142). -/
def MemForm.acting (f : MemForm) : List Nat := if f.one then [firstLane f.lanes] else lanesOf f.lanes

/-- The accesses of the lanes that reach memory. -/
def State.reached (s : State) (f : MemForm) : List Access :=
  f.acting.flatMap fun l => match s.place f l (f.pieces l) with | .ok xs => xs | _ => []

/-- The lanes that do not, with the address and, unless a saved team's bytes stand there, the reason. -/
def State.unreached (s : State) (f : MemForm) : List (Nat × Nat × Option NoAccess × Nat) :=
  f.acting.filterMap fun l =>
    match s.place f l (f.pieces l) with
    | .ok _ => none
    | .fault why va => some (l, va, some why, 0)
    | .saved team va => some (l, va, none, team)

/-- The one with the lowest address among those that system software hears of; the lowest of all where there is none. -/
def lowestFault (bad : List (Nat × Nat × Option NoAccess × Nat)) : Option (Nat × Nat × Option NoAccess × Nat) :=
  let real := bad.filter fun b => b.2.2.1.isSome
  (if real.isEmpty then bad else real).foldl (fun m b =>
    match m with
    | none => some b
    | some x => if b.2.1 < x.2.1 then some b else some x) none

/-- An operation opened for the issuing fragment: its counter rises and its window opens (R85, R183, R221). Its writes carry the group's
latest release, which is its own where it is a release atomic (R336). An engine's may have granules that are to be checked as it comes to
them. -/
def State.openOp (s : State) (i : Instr) (cap : Captured) (todo : List Access) (nums : List Nat) (later : List (Nat × Bool) := []) : State :=
  let c := nums.headD 0
  let o : Op :=
    { id := s.nextOp, gs := s.me.gs, frag := s.fr.id, path := (shape i).path, cap := cap, region := s.me.race.rg
      todo := todo, got := [], nums := nums, begun := false, complete := false, holds := [], suspended := none, waits := none
      issuedAt := s.now, before := s.me.race.before, leaves := s.now, later := later
      rel := if (atomicKind i).isSome && decide (2 ≤ atomOrd c) then s.me.releaseAt (atomScope c) else s.me.lastRelease }
  let la := (shape i).la.getD 0
  let s := { s with nextOp := s.nextOp + 1, ops := s.ops ++ [o] }
  s.modFr fun f => { f with wins := f.wins ++ [{ op := o.id, la := la, left := la, regs := s.writeCodes i }] }

/-- What an atomic's order ends at its issue: the region for its release and for its acquire (R335). -/
def Group.orderRegion (g : Group) (i : Instr) (c : Nat) : Group :=
  if (atomicKind i).isNone then g
  else
    let g := if 2 ≤ atomOrd c then g.releaseRegion (atomScope c) else g
    if atomOrd c % 2 = 1 then g.endRegion else g

/-- The access performs where the lanes reach memory, later and in its own time; the other lanes park (R30, R180, R181,
R301, R319). A transaction is not open. -/
def State.startLs (s : State) (i : Instr) (cap : Captured) (f : MemForm) : State :=
  let xs := s.reached f
  let bad := s.unreached f
  let lost := if f.one && !bad.isEmpty then f.lanes else maskOf (bad.map (·.1))
  let regs := s.advance
  let go := f.lanes &&& ~~~lost
  let s := if xs.isEmpty then regs
    else (regs.openOp i { cap with act := go } xs f.nums).modMe fun g => g.orderRegion i (f.nums.headD 0)
  match lowestFault bad with
  | none => s
  | some (_, va, some why, _) => s.keepParked (s.parkLanes cap lost why va f.need.wr 0 none) s.me.gs
  | some (_, va, none, team) => s.keepParked (s.parkLanes cap lost pageFault va f.need.wr 0 (some team)) s.me.gs

/-- The granules of a list of accesses with whether they are written, joined to a set. -/
def joinSet (set : List (Nat × Bool)) (wr : Bool) (xs : List Access) : List (Nat × Bool) :=
  (xs.flatMap fun x => granules x.pa x.size).foldl (fun m k => insertKey m k (wr || (lookup m k).getD false)) set

/-- The race check of accesses that perform together (R180, R338): the first conflict with its access, and the misses. -/
def State.checkAccesses (s : State) (g : Group) (c : Checked) : List Access → Option (Access × Nat × Entry × Bool) × Nat × Nat
  | [] => (none, 0, 0)
  | x :: xs =>
    let r := if x.chk then s.checkAll g c (granules x.pa x.size) else (none, 0, 0)
    let rest := s.checkAccesses g c xs
    ((match r.1 with | some e => some (x, e) | none => rest.1), r.2.1 + rest.2.1, r.2.2 + rest.2.2)

/-- The trap of a conflict, with its record: the lowest conflicting lane, and that lane's address where the instruction forms one (R339,
R454). -/
def raceTrap (c : Checked) (path : Nat) (lanes : Mask) (addr : Nat → Option Nat) (hit : Access × Nat × Entry × Bool) : Trap :=
  let (x, gran, e, writer) := hit
  let va := (addr x.lane).getD x.va
  { cause := causeRace, sub := path, addr := va, lanes := lanes, race := raceRecord c path x.lane va gran e writer }

/-- The address of a lane of a captured instruction. -/
def Captured.address (c : Captured) (l : Nat) : Option Nat := (c.laneAddress l).1

/-- How the accesses of a transaction are checked: as one indivisible access of die scope (R218, R326, R333). -/
def State.txChecked (s : State) (wr : Bool) : Checked :=
  { gs := s.me.gs, rd := !wr, wr := wr, atomic := true, scope := 3, region := s.me.race.rg, bound := s.me.race.rg + 1
    boundScope := 3 }

/-- An access is one a transaction holds: the SRAM space of the issuing die, or a page mapped CHK (R217). -/
def State.transactional (s : State) (x : Access) : Bool :=
  if isSram x.pa then sliceOf x.pa / 64 == coreOf s.me.gs / 64 else x.chk

/-- The group's earlier LS operations have yet to access some of the bytes (R182). -/
def State.laterThan (s : State) (xs : List Access) : Bool :=
  s.ops.any fun o => o.gs == s.me.gs && o.path == some .ls && o.todo.any fun y => xs.any y.overlaps

/-- A load or store inside an open transaction (R217, R219): loads perform at once and see held stores; stores are held. A record of LDT
or STT longer than 16 bytes is one transactional access a word, which no rule says: DESIGN CHOICE (log entry 20), unsafe. -/
def State.inTx (s : State) (i : Instr) (f : MemForm) : Ran :=
  let wr := writesMemory i
  let xs := s.reached f
  let set := joinSet s.me.tx.set wr xs
  let cap := s.capture i
  match lowestFault (s.unreached f) with
  | some (l, va, some why, _) =>
    -- what no service can help traps at once (R452)
    if why.service then .done ((s.postFault (s.faultRec 0 s.me.gs why va 0 0 wr 0)).abortTx s.me.gs 4)
    else .trap { cause := why.cause, sub := 0, addr := (cap.address l).getD va, race := [], lanes := f.lanes }
  | some (_, _, none, _) => .done (s.abortTx s.me.gs 4)
  | none =>
    if !xs.all s.transactional then .abort 7
    else if 8 < set.length then .abort 2
    else
      let s := xs.foldl (fun (s : State) x => s.abortConflicts s.me.gs wr x.pa x.size) s
      let c := s.txChecked wr
      let r := s.checkAccesses s.me c xs
      match r.1 with
      | some hit => .trapIn s (raceTrap c 0 f.lanes cap.address hit)
      | none =>
        match if wr then none else xs.find? fun x => s.poisoned x.pa x.size with
        | some x => .trap { cause := causeEcc, sub := 0, addr := (cap.address x.lane).getD x.va, race := [], lanes := f.lanes }
        | none =>
        let s := (s.countMisses s.me.gs r.2.1 r.2.2).modMe fun g => { g with tx := { g.tx with set := set } }
        let s := s.advance
        if wr then
          let held := xs.flatMap fun x => (leBytes x.size x.data).mapIdx fun j b => (x.pa + j, b)
          let s := (lanesOf f.lanes).foldl (fun (s : State) l => s.flagStored s.me.gs l cap 0) s
          .done (s.modMe fun g =>
            { g with tx := { g.tx with stores := held.foldl (fun m kb => insertKey m kb.1 kb.2) g.tx.stores } })
        else
          let s := s.openOp i { cap with act := f.lanes } xs f.nums
          let id := s.nextOp - 1
          match s.op? id with
          | none => .done s
          | some o =>
            let step := fun (s : State) x => (s.modOp id fun o => { o with begun := true, todo := o.todo.erase x }).arrived o x (s.txView s.me x)
            .done ((xs.foldl step s).settleOp id)

/-- Some lane's access, or the walk of its address, has to wait for a stack that is not up (R469). -/
def State.formWaits (s : State) (f : MemForm) : Bool :=
  (s.unreached f).any fun b => match b.2.2.1 with | some why => why.cause == 0 | none => false

/-- A memory instruction (R180): alignment, translation, then the accesses. -/
def memory (i : Instr) (form : State → MemForm) (before : State) : Host.Outcome State Fault Refusal :=
  issue i (fun s =>
    let f := form s
    match f.acting.find? fun l => f.addr l % f.align != 0 with
    | some l =>
      .trap { cause := causeAlign, sub := 0, addr := f.addr l, race := [], lanes := f.lanes }
    | none =>
      if !f.one && f.lanes == 0 then .done s.advance
      else if s.formWaits f then .wait before
      else
        match s.me.tx.st with
        | .opened _ =>
          match s.acceptMem s.me.gs (if writesMemory i then [] else (s.reached f).map (·.pa)) with
          | none => .wait before
          | some t => if s.heldBack s.me.gs s.nextOp || s.laterThan (s.reached f) then .wait before else t.inTx i f
        | _ => .done (s.startLs i (s.capture i) f)) before

/-- SLD (R142). -/
def execSld (d a k la : Nat) (s : State) : Host.Outcome State Fault Refusal :=
  memory (.sld d a k la) (fun s =>
    { lanes := s.fr.exec, one := true, addr := fun _ => (s.rdS64 k + BitVec.ofNat 64 (4 * a)).toNat, align := 4
      pieces := fun _ => [⟨0, 0, 4, 0⟩], need := Need.load, nums := [] }) s

/-- SST (R142). -/
def execSst (d a k la : Nat) (s : State) : Host.Outcome State Fault Refusal :=
  memory (.sst d a k la) (fun s =>
    { lanes := s.fr.exec, one := true, addr := fun _ => (s.rdS64 k + BitVec.ofNat 64 (4 * a)).toNat, align := 4
      pieces := fun _ => [⟨0, 0, 4, (s.rdSd d).toNat⟩], need := Need.store, nums := [] }) s

/-- A vector load of n bytes a lane (R185, R186). -/
def State.loadForm (s : State) (a k n : Nat) : MemForm :=
  { lanes := s.active, one := false, addr := s.laneAddr a k, align := n, pieces := fun _ => [⟨0, 0, n, 0⟩]
    need := Need.load, nums := [] }

/-- The bytes of consecutive registers of a lane, ascending (R185, R187). -/
def State.regBytes (s : State) (d n l : Nat) : Nat :=
  (List.range n).foldl (fun v j => v + (s.srcV (d + j) l).toNat * 2 ^ (32 * j)) 0

/-- A vector store of n bytes a lane from m registers (R185, R187). -/
def State.storeForm (s : State) (d a k n m : Nat) : MemForm :=
  { lanes := s.active, one := false, addr := s.laneAddr a k, align := n
    pieces := fun l => [⟨0, 0, n, s.regBytes d m l % 2 ^ (8 * n)⟩], need := Need.store, nums := [] }

/-- LD.U8 (R186). -/
def execLdU8 (d a k la : Nat) (s : State) : Host.Outcome State Fault Refusal :=
  memory (.ldU8 d a k la) (fun s => s.loadForm a k 1) s

/-- LD.S8 (R186). -/
def execLdS8 (d a k la : Nat) (s : State) : Host.Outcome State Fault Refusal :=
  memory (.ldS8 d a k la) (fun s => s.loadForm a k 1) s

/-- LD.U16 (R186). -/
def execLdU16 (d a k la : Nat) (s : State) : Host.Outcome State Fault Refusal :=
  memory (.ldU16 d a k la) (fun s => s.loadForm a k 2) s

/-- LD.S16 (R186). -/
def execLdS16 (d a k la : Nat) (s : State) : Host.Outcome State Fault Refusal :=
  memory (.ldS16 d a k la) (fun s => s.loadForm a k 2) s

/-- LD.B32 (R186). -/
def execLdB32 (d a k la : Nat) (s : State) : Host.Outcome State Fault Refusal :=
  memory (.ldB32 d a k la) (fun s => s.loadForm a k 4) s

/-- LD.B64 (R186). -/
def execLdB64 (d a k la : Nat) (s : State) : Host.Outcome State Fault Refusal :=
  memory (.ldB64 d a k la) (fun s => s.loadForm a k 8) s

/-- LD.B128 (R186). -/
def execLdB128 (d a k la : Nat) (s : State) : Host.Outcome State Fault Refusal :=
  memory (.ldB128 d a k la) (fun s => s.loadForm a k 16) s

/-- ST.B8 (R187). -/
def execStB8 (d a k la : Nat) (s : State) : Host.Outcome State Fault Refusal :=
  memory (.stB8 d a k la) (fun s => s.storeForm d a k 1 1) s

/-- ST.B16 (R187). -/
def execStB16 (d a k la : Nat) (s : State) : Host.Outcome State Fault Refusal :=
  memory (.stB16 d a k la) (fun s => s.storeForm d a k 2 1) s

/-- ST.B32 (R187). -/
def execStB32 (d a k la : Nat) (s : State) : Host.Outcome State Fault Refusal :=
  memory (.stB32 d a k la) (fun s => s.storeForm d a k 4 1) s

/-- ST.B64 (R187). -/
def execStB64 (d a k la : Nat) (s : State) : Host.Outcome State Fault Refusal :=
  memory (.stB64 d a k la) (fun s => s.storeForm d a k 8 2) s

/-- ST.B128 (R187). -/
def execStB128 (d a k la : Nat) (s : State) : Host.Outcome State Fault Refusal :=
  memory (.stB128 d a k la) (fun s => s.storeForm d a k 16 4) s

/-- LDT (R190). -/
def execLdt (d a k la : Nat) (s : State) : Host.Outcome State Fault Refusal :=
  memory (.ldt d a k la) (fun s =>
    { s.loadForm a k 4 with pieces := fun _ => (List.range (s.d + 1)).map fun j => ⟨j, 4 * j, 4, 0⟩ }) s

/-- STT (R191). -/
def execStt (d a k la : Nat) (s : State) : Host.Outcome State Fault Refusal :=
  memory (.stt d a k la) (fun s =>
    { s.storeForm d a k 4 1 with
      pieces := fun l => (List.range (s.d + 1)).map fun j => ⟨j, 4 * j, 4, (s.rdVP d j l).toNat⟩ }) s

/-- The sector that a lane of PRF asks for: it reaches cached memory, and no line of its core's L1 serves the group (R192). -/
def State.prefetchKey (s : State) (a k l : Nat) : Option Nat :=
  match s.resolve s.myGridKey s.me.ctx (s.me.handler.map (·.frame)) Need.load (s.laneAddr a k l) 1 with
  | .ok key _ =>
    if !cacheable key || (s.l1Line? (coreOf s.me.gs) s.me.gs s.me.l1Mark key).isSome then none else some key
  | _ => none

/-- The lanes' sectors are filled into L1 as far as their requests are accepted; whether one waits still (R192, R403). -/
def State.prefetch (s : State) (a k : Nat) : List Nat → State × Bool
  | [] => (s, false)
  | l :: ls =>
    match s.prefetchKey a k l with
    | none => s.prefetch a k ls
    | some key =>
      match s.acceptMem s.me.gs [key] with
      | none => let r := s.prefetch a k ls; (r.1, true)
      | some s => (s.fillL1 (coreOf s.me.gs) key (s.rdBytes (key / 32 * 32) 32)).prefetch a k ls

/-- PRF (R192, R217): it asks for sectors and does nothing else; it waits for requests that its budget does not admit yet (R403). DEDUCED
(log entry 50), safe. -/
def execPrf (a k la : Nat) (s : State) : Host.Outcome State Fault Refusal :=
  issue (.prf a k la) (fun s' =>
    match s'.me.tx.st with
    | .opened _ => .done s'.advance
    | _ =>
      let r := s'.prefetch a k (lanesOf s'.active)
      if r.2 then .wait (s.prefetch a k (lanesOf s'.active)).1 else .done r.1.advance) s

/-- The operands of an atomic's lane: v and, above bit 63, the second operand of CAS (R195). -/
def State.atomData (s : State) (c d l : Nat) : Nat :=
  let n := if atomType c = 3 then 2 else 1
  s.regBytes d n l + (if atomOp c = 1 then s.regBytes (d + n) n l * 2 ^ 64 else 0)

/-- An atomic access (R193 to R197). -/
def State.atomForm (s : State) (d a k : Nat) : MemForm :=
  let c := (s.rdS (k + 2)).toNat
  { lanes := s.active, one := false, addr := s.laneAddr a k, align := atomSize c
    pieces := fun l => [⟨0, 0, atomSize c, s.atomData c d l⟩], need := Need.both, nums := [c] }

/-- ATOM (R195, R197). -/
def execAtom (d a k la : Nat) (s : State) : Host.Outcome State Fault Refusal :=
  memory (.atom d a k la) (fun s => s.atomForm d a k) s

/-- RED (R196, R197). -/
def execRed (d a k la : Nat) (s : State) : Host.Outcome State Fault Refusal :=
  memory (.red d a k la) (fun s => s.atomForm d a k) s

/-- MARM (R213): the watch is armed where the first active lane's word lies; with no active lane it is disarmed. -/
def execMarm (a k la : Nat) (before : State) : Host.Outcome State Fault Refusal :=
  issue (.marm a k la) (fun s =>
    let l := firstLane s.active
    let f : MemForm :=
      { lanes := s.fr.exec, one := true, addr := fun _ => s.laneAddr a k l, align := 4
        pieces := fun _ => [⟨0, 0, 4, 0⟩], need := Need.load, nums := [] }
    if s.active = 0 then
      -- MARMs still to perform arm nothing any more
      let past := fun (o : Op) => if o.gs == s.me.gs && o.arms then { o with nums := [1] } else o
      .done { (s.modMe fun g => { g with watch := none }) with ops := s.ops.map past }.advance
    else if f.addr l % 4 ≠ 0 then
      .trap { cause := causeAlign, sub := 0, addr := f.addr l, race := [], lanes := s.active }
    else
      -- the one address serves every lane that parks
      let cap := s.capture (.marm a k la)
      let word := s.rdV a l
      let same := { cap with vec := cap.vec.map fun kw => if kw.1 / 32 = vkey a 0 0 / 32 then (kw.1, word) else kw }
      if s.formWaits f then .wait before else .done (s.startLs (.marm a k la) same f)) before

end Sys2Proof.Machine
end

