-- ==== Sys2Proof/Machine/Engine.lean ====
section
/-!
DEFINITION. What the engine instructions share at issue: the race check of every granule they will touch (R224), lane
operands that park (R225), and the operation they leave behind (R221, R222).
-/
namespace Sys2Proof.Machine

/-- A range of bytes that an engine will access: the lane it belongs to, its address, length and whether it is written. -/
structure Span where
  lane : Nat
  va : Nat
  n : Nat
  wr : Bool
deriving DecidableEq, Repr

/-- The granules of a range; an empty one has none. -/
def Span.granules (x : Span) : List Nat := if x.n = 0 then [] else Machine.granules x.va x.n

/-- The granules of a range that are race-checked at issue, as accesses of one byte each that name the range's start, and those that are
not reached. -/
def State.spanAccesses (s : State) (x : Span) : List Access :=
  x.granules.filterMap fun a =>
    match s.resolve s.myGridKey s.me.ctx none (if x.wr then Need.store else Need.load) (max a x.va) 1 with
    | .ok key true => some { lane := x.lane, part := 0, va := x.va, pa := key / 32 * 32, size := 1, data := 0, chk := true }
    | _ => none
def State.spanLater (s : State) (x : Span) : List (Nat × Bool) :=
  x.granules.filterMap fun a =>
    match s.resolve s.myGridKey s.me.ctx none (if x.wr then Need.store else Need.load) (max a x.va) 1 with
    | .ok _ _ => none
    | _ => some (a, x.wr)

/-- How an engine's accesses are checked: as the issuing group's, in its current region (R224). -/
def State.engineChecked (s : State) (wr : Bool) : Checked :=
  s.me.plainChecked wr

/-- The check of an engine's granules in order: the first conflict with its access and whether that writes, and the misses. -/
def State.checkEach (s : State) : List (Access × Bool) → Option (Bool × Access × Nat × Entry × Bool) × Nat × Nat
  | [] => (none, 0, 0)
  | (x, wr) :: xs =>
    let r := s.checkAll s.me (s.engineChecked wr) [x.pa]
    let rest := s.checkEach xs
    ((match r.1 with | some e => some (wr, x, e) | none => rest.1), r.2.1 + rest.2.1, r.2.2 + rest.2.2)

/-- The check at issue of an engine's ranges, lane after lane: the RACE trap of the first conflict with the state in which transactions
that the ranges meet have aborted; or that state with the granules tagged and the misses counted, and the granules that are not reached
yet (R219, R224, R338, R339, R454). -/
def State.checkSpans (s : State) (path : Path) (lanes : Mask) (spans : List Span) :
    Except (State × Trap) (State × List (Nat × Bool)) :=
  let spans := (List.range 32).flatMap fun l => spans.filter (·.lane == l)
  let xs := spans.flatMap fun x => (s.spanAccesses x).map (·, x.wr)
  let s := xs.foldl (fun (s : State) x => s.engineMeets x.2 [x.1.pa]) s
  let r := s.checkEach xs
  match r.1 with
  | some (wr, hit) => .error (s, raceTrap (s.engineChecked wr) path.num lanes (fun _ => none) hit)
  | none =>
    let t := s.countMisses s.me.gs r.2.1 r.2.2
    .ok (xs.foldl (fun (t : State) x => t.tagAccess (s.engineChecked x.2) x.1.pa 1) t, spans.flatMap s.spanLater)

/-- A lane operand that does not reach memory: the lane, the address and why. -/
abbrev LaneFault := Nat × Nat × Option NoAccess × Nat

/-- The first byte of a lane's range that is not reached. -/
def State.laneFault (s : State) (need : Need) (x : Span) : Option LaneFault :=
  match s.keys s.myGridKey s.me.ctx need x.va x.n with
  | .ok _ => none
  | .error (va, .no why) => if why.cause = 0 then none else some (x.lane, va, some why, 0)
  | .error (va, .saved team) => some (x.lane, va, none, team)
  | .error (va, _) => some (x.lane, va, some permFinal, 0)

/-- Lanes whose operand faulted are parked (R181, R225, R319); the state is past the instruction. -/
def State.parkFaults (s : State) (cap : Captured) (bad : List LaneFault) (lost : Mask) (wr : Bool) (path : Path) : State :=
  match lowestFault bad with
  | none => s
  | some (_, va, some why, _) => s.keepParked (s.parkLanes cap lost why va wr path.num none) s.me.gs
  | some (_, va, none, team) => s.keepParked (s.parkLanes cap lost pageFault va wr path.num (some team)) s.me.gs

/-- The lanes of a list of faults. -/
def faultLanes (bad : List LaneFault) : Mask := maskOf (bad.map (·.1))

/-- Lanes whose operand faulted park, then the ranges of the others are checked, and what is to go on for these does (R180, R224, R441). -/
def State.parkThenCheck (s : State) (cap : Captured) (bad : List LaneFault) (lost : Mask) (wr : Bool) (path : Path)
    (spans : List Span) (go : State → List (Nat × Bool) → State) : Ran :=
  let u := s.advance.parkFaults cap bad lost wr path
  if spans.isEmpty || !u.live then .done u
  else
    match u.checkSpans path (s.active &&& ~~~lost) spans with
    | .error (v, t) => .trapIn { v with fr := { v.fr with pc := s.fr.pc } } t
    | .ok (v, later) => .done (go v later)

/-- The trap of an address or an offset that breaks its alignment (R77, R238, R239, R246). -/
def alignTrap (lanes : Mask) (va : Nat) : Trap :=
  { cause := causeAlign, sub := 0, addr := va, race := [], lanes := lanes }

/-- The trap of an offset that the team may not reach (R224, R228, R239). -/
def permTrap (lanes : Mask) (va : Nat) : Trap :=
  { cause := causePerm, sub := 0, addr := va, race := [], lanes := lanes }

/-- An operation of the engine is issued whole: past the instruction, counted and its window open. -/
def State.openEngine (s : State) (i : Instr) (nums : List Nat) (later : List (Nat × Bool) := []) : State :=
  s.advance.openOp i (s.capture i) [] nums later

/-- The rest of an operation that has nothing left to do: it completes and is counted out. -/
def State.closeOp (s : State) (id : Nat) : State := s.completeOp id

end Sys2Proof.Machine
end

