-- ==== Sys2Proof/Machine/Control.lean ====
section
/-!
DEFINITION. Mode, control flow, ending, trapping and returning, pre-emption points, scopes and EXEC (R104 to R130).
-/
namespace Sys2Proof.Machine

/-- NOP (R105). -/
def execNop (s : State) : Host.Outcome State Fault Refusal := simple .nop (fun s => s) s

/-- SETM (R22, R104). -/
def execSetm (m : Nat) (s : State) : Host.Outcome State Fault Refusal :=
  simple (.setm m) (fun s => s.modFr fun f => { f with mr := m }) s

/-- PC + 4 × SignExtend(tgt) (R83). -/
def branchTarget (pc : Addr) (tgt : Nat) : Addr := pc + 4 * (BitVec.ofNat 10 tgt).signExtend 64

/-- The reconvergence address, open where rcv is 0 (R83). -/
def joinTarget (pc : Addr) (rcv : Nat) : Option Addr := if rcv = 0 then none else some (pc + BitVec.ofNat 64 (4 * rcv))

/-- Split table and overflow stack are full (R107). -/
def State.noRoom (s : State) : Bool := s.me.splitRecords == 8 && s.me.overDepth == 16

/-- BRA (R107). -/
def execBra (p n tgt rcv : Nat) (s : State) : Host.Outcome State Fault Refusal :=
  issue (.bra p n tgt rcv) (fun s =>
    let t := s.branchLanes p n
    let goal := branchTarget s.pc tgt
    if t = s.fr.exec then .done (s.jumpTo goal)
    else if t = 0 then .done s.advance
    else if s.noRoom then .trap (Trap.plain causeSplit 0 s.fr.exec)
    else
      let child := s.me.nextFrag
      .done ((s.split t goal (s.pc + 4) (joinTarget s.pc rcv)).settlePair child)) s

/-- BRU (R110). -/
def execBru (p n tgt rcv : Nat) (s : State) : Host.Outcome State Fault Refusal :=
  issue (.bru p n tgt rcv) (fun s =>
    .done (if s.rdQ p != (n == 1) then s.jumpTo (branchTarget s.pc tgt) else s.advance)) s

/-- The trap of a misaligned target (R77, R111, R115). -/
def targetTrap (s : State) (goal : Addr) : Trap :=
  { cause := causeAlign, sub := 0, addr := goal.toNat, race := [], lanes := s.fr.exec }

/-- JMPS (R111). -/
def execJmps (a : Nat) (s : State) : Host.Outcome State Fault Refusal :=
  issue (.jmps a) (fun s =>
    let goal := s.rdS64 a
    if goal.toNat % 4 ≠ 0 then .trap (targetTrap s goal) else .done (s.jumpTo goal)) s

/-- A return address pushed, and the jump (R113, R114). -/
def State.callTo (s : State) (goal : Addr) : State :=
  let back := s.pc + 4
  (s.modFr fun f => { f with links := back :: f.links }).jumpTo goal

/-- The link stack is full (R113). -/
def State.linksFull (s : State) : Bool := s.fr.links.length == 32

/-- CALL (R114). -/
def execCall (p n tgt : Nat) (s : State) : Host.Outcome State Fault Refusal :=
  issue (.call p n tgt) (fun s =>
    let t := s.branchLanes p n
    let goal := branchTarget s.pc tgt
    if t = 0 then .done s.advance
    else if t = s.fr.exec then
      (if s.linksFull then .trap (Trap.plain causeSplit 1 t) else .done (s.callTo goal))
    else if s.noRoom then .trap (Trap.plain causeSplit 0 s.fr.exec)
    else
      let child := s.me.nextFrag
      -- the child of the lanes whose guard holds is the fragment that goes on
      let s' := s.split t s.fr.pc (s.pc + 4) (some (s.pc + 4))
      if s'.linksFull then .trapIn (s'.settleChild child) (Trap.plain causeSplit 1 t) else .done ((s'.callTo goal).settlePair child)) s

/-- CALLS (R115). That at call depth 32 it traps SPLIT with subcode 1, after its alignment check, as CALL does, is not said: DESIGN
CHOICE (log entry 15), unsafe. -/
def execCalls (a : Nat) (s : State) : Host.Outcome State Fault Refusal :=
  issue (.calls a) (fun s =>
    let goal := s.rdS64 a
    if goal.toNat % 4 ≠ 0 then .trap (targetTrap s goal)
    else if s.linksFull then .trap (Trap.plain causeSplit 1 s.fr.exec)
    else .done (s.callTo goal)) s

/-- RET (R116). -/
def execRet (s : State) : Host.Outcome State Fault Refusal :=
  issue .ret (fun s =>
    match s.fr.links with
    | [] => .trap (Trap.plain causeSplit 2 s.fr.exec)
    | back :: rest => .done ((s.modFr fun f => { f with links := rest }).jumpTo back)) s

/-- SYNC (R109). -/
def execSync (rcv : Nat) (s : State) : Host.Outcome State Fault Refusal :=
  issue (.sync rcv) (fun s =>
    let goal := joinTarget s.pc rcv
    let s' := match s.me.inner s.fr.owned with
      | some j => if j.addr.isNone then s.modMe fun g => g.modJoin j fun x => { x with addr := goal } else s
      | none => s
    .done s'.advance.settleAll) s

/-- An EXIT of a cluster launch waits for the team's first CBAR phase (R118). -/
def State.exitWaits (s : State) : Bool :=
  match s.myTeam with
  | some t => t.cluster.isSome && !t.passedCbar
  | none => false

/-- EXIT (R117, R118). -/
def execExit (s : State) : Host.Outcome State Fault Refusal :=
  issue .exit (fun s' => if s'.exitWaits then .wait s else .done (s'.leave s'.fr.owned)) s

/-- TRAP (R119). -/
def execTrap (imm : Nat) (s : State) : Host.Outcome State Fault Refusal :=
  issue (.trap imm) (fun s' =>
    let fpc := match s'.ov with | some _ => s'.fr.pc | none => s'.fr.pc + 4
    match s'.trapAfter? (Trap.plain causeTrap imm s'.fr.exec) (wordOf (.trap imm)) fpc with
    | some t => .done t
    | none => .wait s) s

/-- A fragment whose EXEC has become 0 arrives at its pending join with the lanes of its CLR, or is suspended (R29, R297). -/
def State.emptied (s : State) (arrival : Addr) : State :=
  match s.me.inner s.fr.clr with
  | some j =>
    match s.gather.waitAt s.fr.id j s.fr.clr (some arrival) with
    | (t, some next) => t.arrive next joinFuel
    | (t, none) => t
  | none => (s.modFr fun f => { f with st := .suspended }).gather.checkEnd

/-- TRET (R122, R448); outside a handler it traps ILLEGAL. -/
def execTret (s : State) : Host.Outcome State Fault Refusal :=
  issue .tret (fun s' =>
    match s'.me.handler with
    | none => .trap (Trap.plain causeIllegal 0 s'.fr.exec)
    | some h =>
      let t := s'.returnFrom h
      if s'.returnWaits h then .wait s else .done (if t.live && t.fr.exec == 0 then t.emptied t.fr.pc else t)) s

/-- A live-map entry (R124): NRANGE at most 4, reserved fields 0, ranges aligned, rising and within the team's bytes. -/
def liveMapOk (bytes : Nat) (e : List Byte) : Bool :=
  let n := fieldAt e 0x18 4
  decide (n ≤ 4) && fieldAt e 0xE 2 == 0 && fieldAt e 0x1C 4 == 0
  && (List.range 4).all fun j =>
    let a := fieldAt e (0x20 + 8 * j) 4
    let b := fieldAt e (0x24 + 8 * j) 4
    if j < n then a % 64 == 0 && b % 64 == 0 && decide (a < b) && decide (b ≤ bytes) else a == 0 && b == 0

/-- The trap of a read that fails (R112, R124). -/
def readTrap (lanes : Mask) (va : Nat) (r : Reach) : Trap :=
  let cause := match r with | .no why => why.cause | _ => causePerm
  { cause := cause, sub := 0, addr := va, race := [], lanes := lanes }

/-- A pre-emption request is pending for the issuing group: it covers the team (R409). -/
def State.requested (s : State) : Bool := match s.myTeam with | some t => t.request.isSome | none => false

/-- PPT (R123, R124): without a request it only counts as issued; with one it reads its map and the fragment stops here. -/
def execPpt (imm : Nat) (s : State) : Host.Outcome State Fault Refusal :=
  issue (.ppt imm) (fun s' =>
    if !s'.requested then .done s'.advance
    else
      let map := s'.packetField 0x30 8 + 64 * imm
      match s'.engineRead s'.myGridKey s'.me.ctx map 64, s'.keys s'.myGridKey s'.me.ctx Need.load map 64 with
      | .error e, _ => if e.2.waits then .wait s else .trap (readTrap s'.fr.exec e.1 e.2)
      | .ok e, ks =>
        match s.acceptMem s.me.gs (ks.toOption.getD []) with
        | none => .wait s
        | some paid =>
          if liveMapOk s'.myBytes e then .wait (paid.modFr fun f => { f with st := .stopped, liveMap := some (leNat e) })
          else .trap (Trap.plain causeIllegal 0 s'.fr.exec)) s

/-- YIELD (R126). -/
def execYield (s : State) : Host.Outcome State Fault Refusal :=
  simple .yield (fun s => s.modMe fun g => { g with yielded := some s.now, waitCount := 0 }) s

/-- The charge of an allocation (R35). -/
def charge (d a : Nat) : Nat := (a + 3) / 4 * 4 * (1 + d) * 128

/-- The registers of a scope of n (R127). -/
def scopeRegs (n : Nat) : Nat := (n + 3) / 4 * 4

/-- The registers of a group's open scopes. -/
def Group.scopeSum (g : Group) : Nat := g.scopes.foldl (· + ·) 0

/-- The count of the RSCOPE that a group waits in. -/
def Group.scopeWanted (g : Group) : Nat := match g.wantsScope with | some w => w.2 | none => 0

/-- The register-file bytes a group holds: its allocation, less scopes that stand saved, with a scope granted to it and not
yet opened (R127, R129). -/
def Group.charged (g : Group) : Nat :=
  let open' := if g.savedScopes.isSome then g.alloc - g.scopeSum else g.alloc
  charge g.tangents (open' + (if g.granted then scopeRegs g.scopeWanted else 0))

/-- The groups that hold slots of a core. -/
def State.onCore (s : State) (core : Nat) : List Group :=
  s.allGroups.filter fun g => coreOf g.gs == core && !g.ended && !g.saved

/-- Free register-file bytes of a core (R35, R307); a group whose lanes the grid does not cover holds its charge although it
counts as ended (R388). -/
def State.freeBytes (s : State) (core : Nat) : Nat :=
  2 ^ 21 - ((s.allGroups.filter fun g => coreOf g.gs == core).map (·.charged)).foldl (· + ·) 0

/-- A scope of m more registers fits the issuing group's core (R127). -/
def State.scopeFits (s : State) (m : Nat) : Bool :=
  decide (charge s.d (s.me.alloc + m) - charge s.d s.me.alloc ≤ s.freeBytes (coreOf s.me.gs))

/-- The group waits in RSCOPE: for space, or with its own scopes saved (R129, R310). -/
def Group.waitsScope (g : Group) : Bool := g.wantsScope.isSome && !g.granted

/-- The bytes that the scope a group waits for, and those that its saved scopes, would take. -/
def Group.scopeNeed (g : Group) : Nat :=
  charge g.tangents (g.alloc + scopeRegs g.scopeWanted) - charge g.tangents g.alloc
def Group.savedNeed (g : Group) : Nat := charge g.tangents g.alloc - charge g.tangents (g.alloc - g.scopeSum)

/-- The oldest of a list of groups, by start order. -/
def oldest (gs : List Group) : Option Group := gs.find? fun g => !(gs.any fun h => decide (h.order < g.order))

/-- Every resident group of a core waits in RSCOPE, so that R129 applies. -/
def State.allWaitScope (s : State) (core : Nat) : Bool := (s.onCore core).all (·.waitsScope)

/-- The group that a core serves next while R129 applies: the oldest alone (R129, R310). -/
def State.underPressure (s : State) (core : Nat) (g : Group) : Bool :=
  !s.allWaitScope core || (match oldest (s.onCore core) with | some o => o.gs == g.gs | none => true)

/-- The group whose saved scopes the core reinstates next: the oldest that has any saved, once they fit (R309). -/
def State.toReinstate (s : State) (core : Nat) : Option Group :=
  (oldest ((s.onCore core).filter fun g => g.savedScopes.isSome)).filter fun g =>
    decide (g.savedNeed ≤ s.freeBytes core) && s.underPressure core g

/-- The group whose request the core grants next: the oldest whose request fits (R309). -/
def State.toGrant (s : State) (core : Nat) : Option Group :=
  oldest ((s.onCore core).filter fun g =>
    g.waitsScope && g.savedScopes.isNone && decide (g.scopeNeed ≤ s.freeBytes core) && s.underPressure core g)

/-- No waiting scope goes before the issuing group's (R129, R309). -/
def State.scopeTurn (s : State) : Bool :=
  let core := coreOf s.me.gs
  (s.toReinstate core).isNone && (match s.toGrant core with | some g => g.gs == s.me.gs | none => true)

/-- Some registers of a group become zero, with their planes. -/
def Group.clearFrom (g : Group) (a : Nat) : Group := { g with vregs := skeep (fun k => decide (k < vkey a 0 0)) g.vregs }

/-- RSCOPE (R127, R309): its checks come before the wait, and are not made again. -/
def execRscope (imm : Nat) (s : State) : Host.Outcome State Fault Refusal :=
  issue (.rscope imm) (fun s' =>
    let m := scopeRegs imm
    let a := s'.me.alloc
    let waited := s'.me.wantsScope == some (s'.fr.id, imm)
    if !waited && (!s'.me.frags.isEmpty || s'.me.scopes.length == 8 || decide (112 < a + m) || decide (49152 < charge s'.d (a + m))) then
      .trap (Trap.plain causeIllegal 0 s'.fr.exec)
    else if s'.me.granted || (s'.scopeFits m && s'.scopeTurn) then
      .done (s'.modMe fun g =>
        { (g.clearFrom a) with alloc := a + m, scopes := m :: g.scopes, wantsScope := none, granted := false }).advance
    else .wait (s.modMe fun g => { g with wantsScope := some (s.fr.id, imm) })) s

/-- RSEND (R128). -/
def execRsend (s : State) : Host.Outcome State Fault Refusal :=
  issue .rsend (fun s =>
    match s.me.scopes with
    | [] => .trap (Trap.plain causeIllegal 0 s.fr.exec)
    | m :: rest =>
      if !s.me.frags.isEmpty then .trap (Trap.plain causeIllegal 0 s.fr.exec)
      else
        .done (s.modMe fun g => { (g.clearFrom (g.alloc - m)) with alloc := g.alloc - m, scopes := rest }).advance) s

/-- EXECR (R28, R130). -/
def execExecr (d : Nat) (s : State) : Host.Outcome State Fault Refusal :=
  simple (.execr d) (fun s => s.wrS d s.fr.exec) s

/-- EXECW (R29, R130). -/
def execExecw (a : Nat) (s : State) : Host.Outcome State Fault Refusal :=
  issue (.execw a) (fun s =>
    let allowed := s.fr.exec ||| s.fr.clr
    let exec := s.rdS a &&& allowed
    let clr := (s.fr.clr ||| (s.fr.exec &&& ~~~exec)) &&& ~~~exec
    let s := (s.modFr fun f => { f with exec := exec, clr := clr }).advance
    .done (if exec = 0 then s.emptied s.fr.pc else s)) s

end Sys2Proof.Machine
end

