-- ==== Sys2Proof/Machine/Sync.lean ====
section
/-!
DEFINITION. Fences and path waits, team, cluster and completion barriers, the watch, and transactions (R198 to R219, R335,
R337).
-/
namespace Sys2Proof.Machine

/-- An LS load or ATOM of the group has not completed (R200). -/
def State.loadsPending (s : State) (gs : Nat) : Bool := s.loadsBefore gs s.nextOp

/-- The acquire of a group at a scope, which ends its region (R200, R335). -/
def State.acquireAt (s : State) (gs scope : Nat) : State :=
  let region := match s.anyGroup? gs with | some g => g.race.rg | none => 0
  (s.modGroup gs fun g => s.dogEnd g.endRegion).acquireHold gs scope region s.nextOp

/-- A fence of the issuing fragment is in progress: it holds back the group's later instructions on the paths of a mask, and a time to
reach may be known (R199, R201). -/
def State.fence (s : State) (mask : Nat) (t : Option Nat) : State :=
  s.modMe fun g => { g with fencing := (s.fr.id, mask, t) :: g.fencing.filter fun f => f.1 != s.fr.id }

/-- The issuing fragment's fence has completed. -/
def State.fenced (s : State) : State := s.modMe fun g => { g with fencing := g.fencing.filter fun f => f.1 != s.fr.id }

/-- FENCE (R198 to R200): it issues once what it waits for has come about. -/
def execFence (rel acq scope : Nat) (s : State) : Host.Outcome State Fault Refusal :=
  issue (.fence rel acq scope) (fun s' =>
    let gs := s'.me.gs
    if rel = 1 && !s'.released gs scope s'.nextOp then
      .wait (s.fence 255 (s'.windowStart gs scope s'.nextOp))
    else if acq = 1 && s'.loadsPending gs then .wait (s.fence 255 none)
    else
      let t := s'.fenced
      let t := if rel = 1 then t.modGroup gs fun g => g.fenceRegion scope else t
      let t := if acq = 1 then t.acquireAt gs scope else t
      .done t.advance) s

/-- Some operation of the group on a path of a mask has not completed (R201). -/
def State.pathsBusy (s : State) (gs m : Nat) : Bool :=
  s.ops.any fun o => o.gs == gs && !o.complete && (match o.path with | some p => Nat.testBit m p.num | none => false)

/-- XFENCE (R201, R202, R324). -/
def execXfence (m : Nat) (s : State) : Host.Outcome State Fault Refusal :=
  issue (.xfence m) (fun s' =>
    if s'.pathsBusy s'.me.gs m then .wait (s.fence m none)
    else
      let named := s'.me.pathSent.filter fun e => Nat.testBit m e.1
      .done (s'.fenced.modMe fun g =>
        { g with
          sent := named.foldl (fun l e => noteSent s'.now l 0 e.2) g.sent
          l1Mark := if m % 2 = 1 ∧ m ≠ 1 then s'.fills else g.l1Mark }).advance) s

/-- WAITP (R203). -/
def execWaitp (a f : Nat) (s : State) : Host.Outcome State Fault Refusal :=
  issue (.waitp a f) (fun s' =>
    match Path.all[f]? with
    | some p => if s'.pathCount s'.me.gs p ≤ (s'.rdS a).toNat then .done s'.advance else .wait s
    | none => .wait s) s

/-! ## Barriers -/

/-- An arrival is a release of the group at the barrier's scope and ends its region (R206, R335). -/
def Group.arriveRegion (g : Group) (scope : Nat) : Group := g.releaseRegion scope

/-- The arrival noted in the barrier: the region it ends, and the group's horizon table (R337). -/
def Barrier.note (b : Barrier) (g : Group) (id expect : Nat) : Barrier :=
  { b with
    expect := if b.arrived.isEmpty then expect else b.expect
    arrived := id :: b.arrived
    pendingCut := (g.gs, g.race.rg + 1) :: b.pendingCut
    pendingHorizon := g.race.horizon.foldl (fun (m : List (Nat × Nat)) (e : Nat × Nat) => mergeBound m e.1 e.2) b.pendingHorizon
    pendingBefore := Before.join b.pendingBefore g.past }

/-- What a completed wait on a phase gives the waiting group (R335, R337): OVF that was set before is cleared and CUT set,
then the barrier's cut and horizon set come in. -/
def RaceState.passBarrier (r : RaceState) (b : Barrier) (token now : Nat) : RaceState :=
  let r := if r.ovf then { r with ovf := false, cutTime := now } else r
  let late := decide (1 < (b.phase + 2 ^ 16 - token % 2 ^ 16) % 2 ^ 16)
  let r := { r with cut := b.cut.foldl (fun (m : List (Nat × Nat)) (e : Nat × Nat) => mergeBound m e.1 e.2) r.cut }
  let r := { r.mergeAll b.horizon with before := Before.join r.before b.before }
  { r with ovf := r.ovf || b.horizonOvf || late }

/-- A wait on a barrier completes: an acquire at its scope (R206, R208). -/
def State.passBarrier (s : State) (b : Barrier) (token scope : Nat) : State :=
  let gs := s.me.gs
  (s.acquireAt gs scope).modMe fun g => { g with race := g.race.passBarrier b token s.now }

/-- What Arrive() comes to (R205): a trap, or the token and the state after it. -/
inductive Arrival where
  | bad
  | token (t : Nat) (s : State)

/-- Arrive() on a team barrier (R205, R206). -/
def State.arriveTeam (s : State) (j n : Nat) : Arrival :=
  match s.myTeam with
  | none => .bad
  | some t =>
    let b := t.barrier j
    if b.arrived.contains s.me.gid then .token b.phase s
    else if !b.arrived.isEmpty && n != b.expect then .bad
    else
      let b' := b.note s.me s.me.gid n
      let alive := s.liveIds t.serial
      let done := b'.isComplete alive
      let s := s.modMe fun g => s.dogEnd (g.arriveRegion 1)
      let s := s.modTeam t.serial fun t =>
        { (t.setBarrier j (if done then b'.complete t.before else b')) with
          epoch := if done && alive.all b'.arrived.contains then t.epoch + 1 else t.epoch }
      .token b.phase s

/-- The barrier as it now stands. -/
def State.teamBarrier (s : State) (j : Nat) : Barrier := match s.myTeam with | some t => t.barrier j | none => Barrier.zero

/-- ILLEGAL with subcode 3 (R205). -/
def countTrap (s : State) : Trap := Trap.plain causeIllegal 3 s.fr.exec

/-- BAR (R205 to R207): it arrives, then waits; the token is kept while it waits. -/
def execBar (a b : Nat) (s : State) : Host.Outcome State Fault Refusal :=
  issue (.bar a b) (fun s' =>
    match s'.fr.token with
    | some t =>
      let bar := s'.teamBarrier a
      if bar.phase = t then .wait s
      else .done ((s'.modFr fun f => { f with token := none }).passBarrier bar t 1).advance
    | none =>
      if !s'.released s'.me.gs 1 s'.nextOp then .wait s
      else
        match s'.arriveTeam a (s'.rdS b).toNat, s.arriveTeam a (s.rdS b).toNat with
        | .token t u, .token _ w =>
          let bar := u.teamBarrier a
          if bar.phase = t then .wait (w.modFr fun f => { f with token := some t })
          else .done (u.passBarrier bar t 1).advance
        | _, _ => .trap (countTrap s')) s

/-- BARA (R205, R206). -/
def execBara (d a b : Nat) (s : State) : Host.Outcome State Fault Refusal :=
  issue (.bara d a b) (fun s' =>
    if !s'.released s'.me.gs 1 s'.nextOp then .wait s
    else
      match s'.arriveTeam a (s'.rdS b).toNat with
      | .token t u => .done (u.wrS d (BitVec.ofNat 32 t)).advance
      | .bad => .trap (countTrap s')) s

/-- BARW (R205, R206). -/
def execBarw (a b : Nat) (s : State) : Host.Outcome State Fault Refusal :=
  issue (.barw a b) (fun s' =>
    let t := (s'.rdS b).toNat % 2 ^ 16
    let bar := s'.teamBarrier a
    if bar.phase = t || s'.loadsPending s'.me.gs then .wait s else .done (s'.passBarrier bar t 1).advance) s

/-- The cluster barrier of the issuing group's team, its key, and the group's number in it (R208). -/
def State.clusterPlace (s : State) : Option (Team × Nat × Nat) :=
  s.myTeam.map fun t => (t, clusterKey t, 32 * (t.index % 4) + s.me.gid)

/-- The cluster barrier as it now stands. -/
def State.clusterBarrier (s : State) : Barrier :=
  match s.clusterPlace with
  | some (_, k, _) => sget Barrier.zero s.clusterBarriers k
  | none => Barrier.zero

/-- Arrive() on the cluster barrier; its phase's completion lets the teams' EXITs go (R118, R208). -/
def State.arriveCluster (s : State) : Arrival :=
  match s.clusterPlace with
  | none => .bad
  | some (t, k, id) =>
    let b := s.clusterBarrier
    if b.arrived.contains id then .token b.phase s
    else
      let b' := b.note s.me id 0
      let done := b'.isComplete (s.clusterIds t)
      let s := s.modMe fun g => s.dogEnd (g.arriveRegion 2)
      let s := { s with
        clusterBarriers := sset Barrier.zero s.clusterBarriers k
          (if done then b'.complete (s.endedBefore t) else b')
        teams := if done then s.teams.map fun u =>
            if (s.clusterTeams t).any (fun v => v.serial == u.serial) then { u with passedCbar := true } else u
          else s.teams }
      .token b.phase s

/-- CBAR (R208). -/
def execCbar (s : State) : Host.Outcome State Fault Refusal :=
  issue .cbar (fun s' =>
    match s'.fr.token with
    | some t =>
      let bar := s'.clusterBarrier
      if bar.phase = t then .wait s
      else .done ((s'.modFr fun f => { f with token := none }).passBarrier bar t 2).advance
    | none =>
      if !s'.released s'.me.gs 2 s'.nextOp then .wait s
      else
        match s'.arriveCluster, s.arriveCluster with
        | .token t u, .token _ w =>
          let bar := u.clusterBarrier
          if bar.phase = t then .wait (w.modFr fun f => { f with token := some t })
          else .done (u.passBarrier bar t 2).advance
        | _, _ => .trap (Trap.plain causeIllegal 0 s'.fr.exec)) s

/-! ## Completion barriers -/

/-- The key of a byte of the issuing team (R209). -/
def State.teamKey (s : State) (off : Nat) : Nat :=
  sramKey ((match s.myTeam with | some t => t.tbase | none => 0) + off)

/-- LDCB (R210): one store of the group, checked as one. -/
def execLdcb (a b : Nat) (s : State) : Host.Outcome State Fault Refusal :=
  issue (.ldcb a b) (fun s' =>
    let key := s'.teamKey (s'.rdS a).toNat
    let x : Access :=
      { lane := 0, part := 0, va := key - sramBase + sramVa, pa := key, size := 8
        data := (s'.rdS b).toNat * 2 ^ 32, chk := true }
    let c := s'.me.plainChecked true
    -- the group's earlier accesses to the word, and its acquires, come first (R182, R200)
    if s'.heldBack s'.me.gs s'.nextOp || s'.laterThan [x] then .wait s
    else
      let t := s'.abortConflicts s'.me.gs true key 8
      let r := t.checkAccesses t.me c [x]
      match r.1 with
      | some hit => .trap (raceTrap c 0 s'.fr.exec (fun _ => none) hit)
      | none =>
        let t := (t.countMisses c.gs r.2.1 r.2.2).noteWrite c.gs t.nextOp c.region t.now (keysFrom key 8)
        let t := (t.storeNat key 8 x.data).notePlain (keysFrom key 8)
        let t := { t with arrivals := t.arrivals.filter fun e => e.key != key }
        .done (t.tagAccess c key 8).advance) s

/-- The trap of a poisoned word that an instruction of the whole fragment reads (R464). -/
def poisonedWord (s : State) (va : Nat) : Trap :=
  { cause := causeEcc, sub := 0, addr := va, race := [], lanes := s.fr.exec }

/-- CBWAIT (R212, R337): engine writes that arrived before the phase advanced are visible on every path. -/
def execCbwait (a b : Nat) (s : State) : Host.Outcome State Fault Refusal :=
  issue (.cbwait a b) (fun s' =>
    let key := s'.teamKey (s'.rdS a).toNat
    let p := cbPhase (s'.rdNat key 8)
    if s'.poisoned key 8 then .trap (poisonedWord s' (key - sramBase + sramVa))
    else if p = (s'.rdS b).toNat % 2 ^ 16 || s'.loadsPending s'.me.gs then .wait s
    else
      let past := s'.arrivals.filter fun e => e.key == key && e.phase != p
      let t := s'.modMe fun g =>
        { g with race := past.foldl (fun (r : RaceState) e => { r.merge e.gs e.bound with before := Before.join r.before e.before }) g.race
                 l1Mark := s'.fills }
      .done (t.acquireAt t.me.gs 1).advance) s

/-! ## Watching a word -/

/-- MWAIT (R207, R214). -/
def execMwait (a : Nat) (s : State) : Host.Outcome State Fault Refusal :=
  issue (.mwait a) (fun s' =>
    let finish := fun (t : State) =>
      ((t.modMe fun g => { g with watch := none }).modFr fun f => { f with watching := none, woken := false }).advance
    match s'.fr.watching with
    | some _ => if s'.fr.woken then .done (finish s') else .wait s
    | none =>
      match s'.me.watch with
      | none => .trap (Trap.plain causeIllegal 0 s'.fr.exec)
      | some (va, key) =>
        let c := (s'.rdS a).toNat
        if !isBlock key && s'.poisoned key 4 then .trap (poisonedWord s' va)
        else if s'.watched key ≠ c then .done (finish s')
        else .wait (s.modFr fun f => { f with watching := some c, woken := false })) s

/-! ## Transactions -/

/-- TXB (R216). That a parked fragment does not count among the group's fragments here, as R301 does not count it in SPLITCNT, is a
DESIGN CHOICE (log entry 20), unsafe. -/
def execTxb (d : Nat) (s : State) : Host.Outcome State Fault Refusal :=
  issue (.txb d) (fun s =>
    let t := s.pc
    let several := s.me.frags.any fun f => f.st != .gone
    let tx : Tx :=
      { st := if several then .aborted t else .opened t, mr := s.fr.mr, exec := s.fr.exec, sd := d, set := [], stores := []
        firstOp := s.nextOp }
    let s := s.wrS d (if several then abortCode 3 0 t t else 0)
    .done (s.modMe fun g => { g with tx := tx }).advance) s

/-- TXA (R216): past the TXB's start it falls through while the transaction is open, and takes its target after an abort. -/
def execTxa (tgt : Nat) (s : State) : Host.Outcome State Fault Refusal :=
  issue (.txa tgt) (fun s =>
    match s.me.tx.st with
    | .aborted _ => .done ((s.modMe fun g => { g with tx := Tx.idle }).jumpTo (branchTarget s.pc tgt))
    | .opened _ => .done s.advance
    | .none => .trap (Trap.plain causeIllegal 0 s.fr.exec)) s

/-- The held stores become visible at once, as writes of the current region that carry the commit's release; the granules that were
only read are tagged now too, since the transaction is one access made at its commit (R218, R326, R333). The region ends once
(R335). -/
def State.commitTx (s : State) : State :=
  let g := s.me
  let core := coreOf g.gs
  let s := s.noteWrite g.gs s.nextOp g.race.rg g.quiet (g.tx.stores.map (·.1))
  let s := g.tx.stores.foldl (fun (s : State) kb => s.hideOld kb.1 1) ((s.storeAt g.tx.stores).noteCommit g.gs)
  let s := g.tx.stores.foldl (fun (s : State) kb => s.updateL1 core kb.1 [kb.2]) s
  let s := g.tx.set.foldl (fun (s : State) e => s.tagAccess (s.txChecked e.2) e.1 1) s
  let s := s.modMe fun g => { g.releaseRegion 3 with tx := Tx.idle }
  s.acquireHold g.gs 3 g.race.rg s.nextOp

/-- TXC (R218). -/
def execTxc (s : State) : Host.Outcome State Fault Refusal :=
  issue .txc (fun s' =>
    match s'.me.tx.st with
    | .opened _ =>
      if s'.ops.any fun o => o.gs == s'.me.gs && decide (s'.me.tx.firstOp ≤ o.id) && !o.complete then .wait s
      else if !s'.released s'.me.gs 3 s'.nextOp then .wait s
      else
        match s'.acceptMem s'.me.gs (s'.me.tx.stores.map (·.1)) with
        | none => .wait s
        | some t => .done t.commitTx.advance
    | _ => .trap (Trap.plain causeIllegal 0 s'.fr.exec)) s

end Sys2Proof.Machine
end

