-- ==== Sys2Proof/Machine/MemoryEvents.lean ====
section
/-!
DEFINITION. The events of the LS path and of translation: an access performs, a sector returns, a walk completes, a release
window begins (R188, R199, R219, R321, R338, R339, R403, R419, R464).
-/
namespace Sys2Proof.Machine

/-- An event: nothing is selected while it happens. -/
def happen (f : State → State) (s : State) : Host.Outcome State Fault Refusal := .next (f s.park.parkRay)

/-- A trap that an operation raises when it performs: its fragment takes it, or it waits where the fragment is held. -/
def State.trapAtHome (s : State) (o : Op) (t : Trap) : State :=
  let u := s.select o.gs o.frag
  if u.live && !u.fr.held && u.me.gs == o.gs && u.fr.id == o.frag then u.trapOp o t else s

/-- The lanes of an operation that still have accesses to perform; the whole fragment of an SLD (R142). -/
def Op.waiting (o : Op) : Mask :=
  match o.cap.instr with
  | .sld .. => o.cap.act
  | _ => maskOf (o.todo.map (·.lane))

/-- An access meets an uncorrectable error: a load finds its data poisoned (R464), or no port is left that leads to its peer device
(R429). -/
def State.accessFails (s : State) (o : Op) (x : Access) : Bool :=
  (readsMemory o.cap.instr && s.poisoned x.pa x.size) || s.peerLost (s.placeOf o.gs).1 x.pa

/-- Such an instruction traps ECC: it stands in the queue for the lanes that have not performed (R181), and the trap names the lowest of
those that meet the error. -/
def State.eccTrap (s : State) (o : Op) : State :=
  let s := o.got.foldl (fun (s : State) r => s.deliver o r) s
  let left := o.waiting
  let bad := (o.todo.filter (s.accessFails o)).map fun x => (x.lane, (o.cap.address x.lane).getD x.va)
  let addr := ((bad.find? fun b => !bad.any fun c => decide (c.1 < b.1)).map (·.2)).getD 0
  let s := s.modOp o.id fun o => { o with got := [], begun := false, cap := { o.cap with act := left } }
  match s.op? o.id with
  | none => s
  | some o => s.trapAtHome o { cause := causeEcc, sub := 0, addr := addr, race := [], lanes := left }

/-- An access of an operation that has passed its checks takes its next step: a store of several words that a lane step shares comes
apart, one that hits L1 lines may update these before it performs, and otherwise it performs (R184, R356). -/
def State.stepAccess (s : State) (o : Op) (x : Access) : State :=
  if s.splits? o x then s.splitStore o x
  else if s.hitsL1 o x && Config.choice s.tick % 2 == 0 then s.draw.goEarly o x
  else (s.draw.performAccess o x).settleOp o.id

/-- An access of an operation performs, once its checks have passed (R180, R219, R338, R339, R403). DEDUCED (log entries 19 and
22): safe for the order. -/
def State.performNext (s : State) (id : Nat) : State :=
  match s.op? id with
  | none => s
  | some o =>
    if o.path != some .ls || !s.mayPerform o then s
    else
      let ready := s.readyAccesses o
      match ready[Config.choice s.tick % ready.length]? with
      | none => s
      | some x =>
        match if o.begun then some s.draw else s.draw.acceptMem o.gs (o.todo.map (·.pa)) with
        | none => s.draw
        | some s =>
          let s := s.abortConflicts o.gs (writesMemory o.cap.instr) x.pa x.size
          let g := (s.anyGroup? o.gs).getD Group.empty
          let r := if o.begun then (none, 0, 0) else s.checkAccesses g o.checked o.todo
          match r.1 with
          | some hit => s.trapAtHome o (raceTrap o.checked 0 o.cap.act o.cap.address hit)
          | none =>
            if s.accessFails o x then s.eccTrap o
            else
              -- the accesses that were checked together stand in the tags from here on, so that none goes by another unchecked
              let s := if o.begun then s else o.todo.foldl (fun (s : State) y => s.tagOf o y) s
              (s.countMisses o.gs r.2.1 r.2.2).stepAccess o x

/-- MEMORY_ACCESS_PERFORM (R321). -/
def execEvMemoryAccessPerform (op : Nat) (s : State) : Host.Outcome State Fault Refusal :=
  happen (fun s => s.performNext op) s

/-- LOAD_SECTOR_RETURN (R188). -/
def execEvLoadSectorReturn (op sector : Nat) (s : State) : Host.Outcome State Fault Refusal :=
  happen (fun s =>
    match s.op? op with
    | some o => if o.got.any fun r => r.sector == sector then s.returnSector o sector else s
    | none => s) s

/-- TRANSLATION_WALK (R419): the walk's page may be kept by the translation caches; a fault is not kept (R424). -/
def execEvTranslationWalk (ctx va : Nat) (s : State) : Host.Outcome State Fault Refusal :=
  happen (fun s => s.cachePage ctx va) s

/-- The moment at which the window N + 2 of a release begins: of a release atomic, or, where the number names no
operation, of the FENCE whose moment comes first. DESIGN CHOICE (log entry 9), safe. -/
def State.releaseMoment (s : State) (id : Nat) : Option Nat :=
  match s.op? id with
  | some o => if o.releases then s.windowStart o.gs (atomScope (o.nums.headD 0)) o.id else none
  | none => (s.allGroups.flatMap fun g => g.fencing.filterMap (·.2.2)).foldl (fun m t =>
      match m with | none => some t | some u => some (min t u)) none

/-- RELEASE_WINDOW (R199): the window begins for which a release waits. -/
def execEvReleaseWindow (op : Nat) (s : State) : Host.Outcome State Fault Refusal :=
  happen (fun s => match s.releaseMoment op with | some t => s.reach t | none => s) s

end Sys2Proof.Machine
end

