-- ==== Sys2Proof/Machine/Skidder.lean ====
section
/-!
DEFINITION. The Skidder's instructions, and its copies (R237, R238, R403).
-/
namespace Sys2Proof.Machine

/-- The key of a completion barrier, or 0 for none. -/
def State.barrierKey (s : State) (off : Nat) : Nat := if off = 0xFFFFFFFF then 0 else s.teamKey off

/-- SKID (R237). -/
def execSkid (d h la : Nat) (s : State) : Host.Outcome State Fault Refusal :=
  issue (.skid d h la) (fun s =>
    let n := (s.rdSd d).toNat
    let hd := s.handle h
    match s.checkSpans .sk s.active [⟨0, hd.base, n, false⟩, ⟨0, hd.dst, n, true⟩] with
    | .error (u, t) => .trapIn u t
    | .ok (s, later) =>
      .done (s.openEngine (.skid d h la)
        ([s.barrierKey (s.rdSd (d + 1)).toNat, s.me.race.rg] ++ copyNums [(hd.base, hd.dst, n)]) later)) s

/-- SKIDG (R238). -/
def execSkidg (d h a la : Nat) (s : State) : Host.Outcome State Fault Refusal :=
  issue (.skidg d h a la) (fun s =>
    let n := (s.rdSd d).toNat
    let hd := s.handle h
    let ls := lanesOf s.active
    let src := fun l => (hd.base + (s.rdV64 a l).toNat) % 2 ^ 64
    let dst := fun l => (hd.dst + s.recordNumber l * n) % 2 ^ 64
    if ls.isEmpty then .done s.advance
    else
      match ls.find? fun l => src l % 4 != 0 with
      | some l => .trap (alignTrap s.active (src l))
      | none =>
        let bad := ls.filterMap fun l => s.laneFault Need.load ⟨l, src l, n, false⟩
        let lost := faultLanes bad
        let good := ls.filter fun l => !lost.getLsbD l
        let cap := s.capture (.skidg d h a la)
        let cap := { cap with vec := cap.vec ++ ls.map fun l => (recordKey l, BitVec.ofNat 32 (s.recordNumber l)) }
        let act := cap.act &&& ~~~lost
        s.parkThenCheck cap bad lost false .sk (good.flatMap fun l => [⟨l, src l, n, false⟩, ⟨l, dst l, n, true⟩]) fun u later =>
          u.openOp (.skidg d h a la) { cap with act := act } []
            ([s.barrierKey (s.rdSd (d + 1)).toNat, s.me.race.rg] ++ copyNums (good.map fun l => (src l, dst l, n))) later) s

/-- The bytes of a piece under a budget: at most 4 KiB, and no more than its limits ever admit (R403). -/
def Budget.piece (b : Budget) : Nat :=
  let skb := if b.skb = 0 then pieceBytes else b.skb.toNat / 4 * 4
  let memb := if b.memb = 0 then pieceBytes else (b.memb.toNat / 64 - 2) * 32
  max 4 (min pieceBytes (min skb memb))

/-- The bytes outside its core's slice that a copy's piece reads and writes. -/
def State.pieceKeys (s : State) (o : Op) (most : Nat) : List Nat :=
  let (grid, ctx) := s.placeOf o.gs
  match copyRecords (o.nums.drop 2) with
  | [] => []
  | (src, dst, n) :: _ =>
    match s.keys grid ctx Need.load src (min n most), s.keys grid ctx Need.store dst (min n most) with
    | .ok a, .ok b => a ++ b
    | _, _ => []

/-- The next piece of a copy is charged, its bytes to the Skidder budget and its sectors to that of memory, and performs (R237, R403).
That it is charged to both is a DEDUCED reading (log entry 28), unsafe for claims that it waits. -/
def State.skidderStep (s : State) (id : Nat) : State :=
  match s.op? id with
  | none => s
  | some o =>
    if o.path != some .sk || o.complete || o.suspended.isSome || s.copyWaits o then s
    else
      let b := s.budgetOf o.gs
      let most := (s.budget b).piece
      let n := match copyRecords (o.nums.drop 2) with | r :: _ => min r.2.2 most | [] => 0
      match (s.acceptMem o.gs (s.pieceKeys o most)).bind fun s =>
        s.accept b chargeSkid (coreOf o.gs / 4) (s.budget b).skb.toNat n with
      | none => s
      | some s => s.copyPiece id most

/-- SKIDDER_COPY (R237): the copy goes on by one piece, and at its last piece arrives on its barrier. -/
def execEvSkidderCopy (op : Nat) (s : State) : Host.Outcome State Fault Refusal := happen (fun s => s.skidderStep op) s

end Sys2Proof.Machine
end

