-- ==== Sys2Proof/Machine/Canopy.lean ====
section
/-!
DEFINITION. The Canopy's instructions at issue, and the event of a lane's step (R239 to R244).
-/
namespace Sys2Proof.Machine

/-! ## Issue -/

/-- The lanes' slot offsets. -/
def State.slotAt (s : State) (a l : Nat) : Nat := (s.rdV a l).toNat

/-- A Canopy instruction at issue (R222, R239): offsets aligned and reached; lanes in a saved team's bytes park. `logs`
gives the log area a lane's CNOP names. -/
def canopy (i : Instr) (a : Nat) (ctl : State → Nat) (logs : State → Nat → Nat × Nat) (s : State) :
    Host.Outcome State Fault Refusal :=
  issue i (fun s =>
    let ls := lanesOf s.active
    let grid := s.myGridKey
    let areas := fun (l : Nat) => [(s.slotAt a l, 256), logs s l]
    if ls.isEmpty then .done s.advance
    else
      match ls.find? fun l => s.slotAt a l % 256 != 0 || (logs s l).1 % 16 != 0 with
      | some l =>
        .trap (alignTrap s.active (sramVa + (if s.slotAt a l % 256 != 0 then s.slotAt a l else (logs s l).1)))
      | none =>
        let bad := ls.flatMap fun l => (areas l).filterMap fun x => (s.offsetBad grid x.1 x.2).map fun r => (l, r)
        match bad.find? fun b => match b.2.2 with | .saved _ => false | _ => true with
        | some b => .trap (permTrap s.active (sramVa + b.2.1))
        | none =>
          let waits : List LaneFault := bad.map fun b =>
            (b.1, sramVa + b.2.1, none, match b.2.2 with | .saved t => t | _ => 0)
          let lost := faultLanes waits
          let cap := s.capture i
          let todo : List Access := (ls.filter fun l => !lost.getLsbD l).map fun l =>
            { lane := l, part := 0, va := sramVa + s.slotAt a l, pa := sramKey (s.slotAt a l), size := 256, data := 0
              chk := true }
          let u := s.advance
          let u := if todo.isEmpty then u else u.openOp i { cap with act := cap.act &&& ~~~lost } todo [ctl s]
          .done (u.parkFaults cap waits lost true .cn)) s

/-- No log area. -/
def noLogs (_ : State) (_ : Nat) : Nat × Nat := (0, 0)

/-- CNOP (R240). -/
def execCnop (d a la : Nat) (s : State) : Host.Outcome State Fault Refusal :=
  canopy (.cnop d a la) a (fun s => (s.rdSd d).toNat)
    (fun s l => ((s.rdV (a + 1) l).toNat, 48 * ((s.rdSd d).toNat / 32 % 65536))) s

/-- CNAD (R241). -/
def execCnad (d a la : Nat) (s : State) : Host.Outcome State Fault Refusal :=
  canopy (.cnad d a la) a (fun _ => 0) noLogs s

/-- CNRD (R242). -/
def execCnrd (d a la : Nat) (s : State) : Host.Outcome State Fault Refusal :=
  canopy (.cnrd d a la) a (fun _ => 0) noLogs s

/-- CNCL (R243). -/
def execCncl (d a la : Nat) (s : State) : Host.Outcome State Fault Refusal :=
  canopy (.cncl d a la) a (fun s => (s.rdSd d).toNat) noLogs s

/-- CNAJ (R244). The gradient buffer's base stands with its ACC bit below it, the base being 16-aligned. -/
def execCnaj (d h a la : Nat) (s : State) : Host.Outcome State Fault Refusal :=
  canopy (.cnaj d h a la) a (fun s => (s.handle h).base + (s.handle h).word % 2) noLogs s

/-- CANOPY_LANE_STEP (R239). -/
def execEvCanopyLaneStep (op : Nat) (s : State) : Host.Outcome State Fault Refusal := happen (fun s => s.canopyStep op) s

end Sys2Proof.Machine
end

