-- ==== Sys2Proof/Machine/Kerf.lean ====
section
/-!
DEFINITION. The Kerf: its instructions, the stages of a K-step, promotion, drains and the tiles' flags (R57 to R60, R226 to
R236, R368 to R377).
-/
namespace Sys2Proof.Machine

/-- A cleared tile (R368). -/
def Tile.zero : Tile := { acc := [], nar := [], c := 0, ov := false, nv := false, sat := false, td := false }

def State.tile (s : State) (p : Nat) : Tile := sget Tile.zero s.tiles p
def State.setTile (s : State) (p : Nat) (t : Tile) : State := { s with tiles := sset Tile.zero s.tiles p t }

/-- The width of an element format by its number (R47). -/
def elemWidth (e : Nat) : Nat := [32, 16, 16, 8, 8, 6, 6, 4, 8, 8, 4, 4].getD e 0

/-- The exact value of an element (R40, R41, R60). -/
def elemValue (e c : Nat) : Exact :=
  match e with
  | 0 => f32.value c | 1 => bf16.value c | 2 => f16.value c | 3 => f8e4.value c | 4 => f8e5.value c
  | 5 => f6e3.value c | 6 => f6e2.value c | 7 => f4.value c
  | 8 => .ofInt (IntType.value ⟨true, 8⟩ c) | 9 => .ofInt (IntType.value ⟨false, 8⟩ c)
  | 10 => .ofInt (IntType.value ⟨true, 4⟩ c) | _ => .ofInt (IntType.value ⟨false, 4⟩ c)

/-- The 32-term groups of a K-step class (R48), and the array clocks of a step (R229, R370). -/
def classSlots (c : Nat) : Nat := [1, 2, 4, 8].getD c 1
def classClocks (c : Nat) : Nat := if c = 0 then 64 else 32

/-- An operand format in full: element, scale kind, block length, band scale. -/
def formatOf (code : Nat) : Nat × Nat × Nat × Bool := (kerfFormat code).getD (0, 0, 1, false)

/-- The elements of a K-step, the bytes of a packed row, and the bytes of its block scales (R42, R228). -/
def stepLength (code : Nat) : Nat := 32 * classSlots (kerfClass (formatOf code).1)
def rowLength (code : Nat) : Nat := stepLength code * elemWidth (formatOf code).1 / 8
def scaleLength (code : Nat) : Nat :=
  let f := formatOf code
  if f.2.1 = 0 then 0 else stepLength code / f.2.2.1

/-- A K-step as its operation holds it. -/
structure KStep where
  tile : Nat
  p : Nat
  fa : Nat
  fb : Nat
  nb : Nat
  tr : Bool
  /-- Addresses of row 0 and of the scales; the follower's come after. -/
  base : Nat
  stride : Nat
  sa : Nat
  sb : Nat
  vb : Nat
  slot : Nat
  fetched : Bool
  promote : Bool
  pair : Bool
  tile2 : Nat
  base2 : Nat
  sa2 : Nat
  /-- The leader's fetch unit, and the follower's, holds an operand buffer for it; the follower's fetch is over (R370, R373). -/
  buf : Bool
  buf2 : Bool
  fetched2 : Bool
  /-- The side whose fetch a fault has suspended: 1 the leader's, 2 the follower's. -/
  halted : Nat
deriving DecidableEq, Repr

def flagNat (b : Bool) : Nat := if b then 1 else 0

def KStep.nums (k : KStep) : List Nat :=
  [k.tile, k.p, k.fa, k.fb, k.nb, flagNat k.tr, k.base, k.stride, k.sa, k.sb, k.vb, k.slot, flagNat k.fetched,
   flagNat k.promote, flagNat k.pair, k.tile2, k.base2, k.sa2, flagNat k.buf, flagNat k.buf2, flagNat k.fetched2, k.halted]

def KStep.of (n : List Nat) : KStep :=
  let g := fun i => n.getD i 0
  { tile := g 0, p := g 1, fa := g 2, fb := g 3, nb := g 4, tr := g 5 == 1, base := g 6, stride := g 7, sa := g 8, sb := g 9
    vb := g 10, slot := g 11, fetched := g 12 == 1, promote := g 13 == 1, pair := g 14 == 1, tile2 := g 15, base2 := g 16
    sa2 := g 17, buf := g 18 == 1, buf2 := g 19 == 1, fetched2 := g 20 == 1, halted := g 21 }

/-- The sides that fetch a step, each with its own unit: the leader's, and of a pair the follower's (R373). -/
def KStep.sides (k : KStep) : List Bool := if k.pair then [false, true] else [false]

/-- A side holds a buffer, a side's fetch is over, and both are. -/
def KStep.buffered (k : KStep) (two : Bool) : Bool := if two then k.buf2 else k.buf
def KStep.hasFetched (k : KStep) (two : Bool) : Bool := if two then k.fetched2 else k.fetched
def KStep.loaded (k : KStep) : Bool := k.sides.all k.hasFetched

/-- A side has taken a buffer; its fetch is over or not. -/
def KStep.takesBuffer (k : KStep) (two : Bool) : KStep := if two then { k with buf2 := true } else { k with buf := true }
def KStep.setFetched (k : KStep) (two done : Bool) : KStep :=
  if two then { k with fetched2 := done } else { k with fetched := done }

/-- The number of a side whose fetch is suspended. -/
def sideCode (two : Bool) : Nat := if two then 2 else 1

/-- The operation is a K-step. -/
def isStep (i : Instr) : Bool := match i with | .kmma .. | .kmmaPair .. => true | _ => false

/-- The slots of a step's class. -/
def KStep.slots (k : KStep) : Nat := classSlots (kerfClass (formatOf k.fa).1)

/-- The tiles an operation of the Kerf works on. -/
def Op.tilesOf (o : Op) : List Nat :=
  if isStep o.cap.instr then
    let k := KStep.of o.nums
    if k.pair then [k.tile, k.tile2] else [k.tile]
  else [o.nums.headD 0]

/-- The rows of a tile whose lanes are active (R228). -/
def activeRows (act : Mask) (nb : Nat) : List Nat := (List.range (32 * (nb + 1))).filter fun r => act.getLsbD (r % 32)

/-! ## Issue -/

/-- The physical tile of a team's tile number. -/
def Team.tileAt (t : Team) (n : Nat) : Nat := t.tiles.getD n 0

/-- The address of a byte of a team's SRAM bytes. -/
def Team.va (t : Team) (off : Nat) : Nat := sramVa + t.tbase + off

/-- The team on the paired core of a cluster launch (R231). -/
def State.follower (s : State) (t : Team) : Option Team :=
  (s.clusterTeams t).find? fun u => u.cluster.isSome && u.index % 4 == (if t.index % 2 = 0 then t.index % 4 + 1 else t.index % 4 - 1)

/-- The end of A's scales for the highest row of a mask, and of B's. -/
def scaleEndA (fa nb : Nat) : Nat :=
  let b := scaleLength fa
  if (formatOf fa).2.2.2 then 128 * b + 2 * ((32 * (nb + 1) - 1) / 64) + 2 else 32 * (nb + 1) * b
def scaleEndB (fb : Nat) : Nat :=
  let b := scaleLength fb
  64 * b + (if (formatOf fb).2.2.2 then 2 else 0)

/-- A scale area passes the team's bytes (R228). -/
def scalePast (tbytes off len : Nat) : Bool := decide (0 < len) && decide (tbytes < off + len)

/-- What a side of a step's fetch reads: rows are part 0, their block scales 1, band scales 2; B's scales 3 and band 4; the
follower's rows and scales 5 to 7. -/
def KStep.parts (k : KStep) (act : Mask) (two : Bool) : List (Nat × Nat × Nat × Nat) :=
  let b := scaleLength k.fa
  let bb := scaleLength k.fb
  let rows := activeRows act k.nb
  let side := fun (part base sa : Nat) =>
    rows.map (fun r => (r, part, (base + r * k.stride) % 2 ^ 64, rowLength k.fa))
    ++ (if b = 0 then [] else rows.map fun r => (r, part + 1, sa + r * b, b))
    ++ (if (formatOf k.fa).2.2.2 then [0, 1].filterMap fun n =>
          if rows.any fun r => r / 64 == n then some (n, part + 2, sa + 128 * b + 2 * n, 2) else none
        else [])
  if two then side 5 k.base2 k.sa2
  else
    side 0 k.base k.sa
      ++ (if bb = 0 then [] else (List.range 64).map fun j => (j, 3, k.sb + j * bb, bb))
      ++ (if (formatOf k.fb).2.2.2 then [(0, 4, k.sb + 64 * bb, 2)] else [])

/-- What a step touches, as it is checked at issue: its rows, and each granule of its scales once (R224). -/
def KStep.spans (k : KStep) (act : Mask) : List Span :=
  let ps := k.sides.flatMap (k.parts act)
  let row := fun (x : Nat × Nat × Nat × Nat) => x.2.1 == 0 || x.2.1 == 5
  let scales := (ps.filter fun x => !row x).flatMap fun x => (granules x.2.2.1 x.2.2.2).map (max x.2.2.1)
  let once := scales.foldl (fun (m : List Nat) va => if m.any fun v => v / 32 == va / 32 then m else m ++ [va]) []
  (ps.filter row).map (fun x => (⟨x.1 % 32, x.2.2.1, x.2.2.2, false⟩ : Span)) ++ once.map fun va => ⟨0, va, 1, false⟩

/-- A row that no service can make readable (R228): its address, if any. -/
def State.rowPast (s : State) (spans : List Span) : Option Nat :=
  (spans.filterMap fun x =>
    match s.keys s.myGridKey s.me.ctx Need.load x.va x.n with
    | .error (va, .no why) => if why.service || why.cause == 0 then none else some va
    | _ => none).head?

/-- The step that the operands describe. -/
def State.stepOf (s : State) (t : Team) (pair : Bool) (d h a : Nat) : KStep :=
  let desc := (s.rdSd64 d).toNat
  let c := (s.rdSd (d + 2)).toNat
  let hd := s.handle h
  let f := (s.follower t).getD t
  let saOff := desc / 2 ^ 16 % 2 ^ 24
  { tile := t.tileAt (c % 16), p := c / 16 % 16 + 1, fa := desc % 32, fb := desc / 32 % 32, nb := c / 2 ^ 11 % 4
    tr := c / 2 ^ 13 % 2 == 1, base := hd.base, stride := hd.word, sa := t.va saOff, sb := t.va (desc / 2 ^ 40 % 2 ^ 24)
    vb := a, slot := 0, fetched := false, promote := false, pair := pair, tile2 := f.tileAt (c % 16)
    base2 := (hd.base + 2 ^ 64 - t.va 0 + f.va 0) % 2 ^ 64, sa2 := f.va saOff, buf := false, buf2 := false
    fetched2 := false, halted := 0 }

/-- The registers of the quad that a step holds (R149, R228). -/
def State.quadHolds (s : State) (t : Team) (d a : Nat) : List (Nat × Nat) :=
  let q := (s.rdSd (d + 2)).toNat / 2 ^ 8 % 8
  (List.range 4).flatMap fun i => (List.range 16).map fun c => (t.slots.getD (4 * q + i) 0, a + c)

/-- KMMA and KMMA.PAIR at issue (R227, R228, R231). -/
def State.issueStep (s : State) (i : Instr) (pair : Bool) (d h a : Nat) : Ran :=
  match s.myTeam with
  | none => .trap (Trap.plain causeIllegal 0 s.active)
  | some t =>
    let k := s.stepOf t pair d h a
    let desc := (s.rdSd64 d).toNat
    let past := scalePast t.tbytes (desc / 2 ^ 16 % 2 ^ 24) (scaleEndA k.fa k.nb)
      || scalePast t.tbytes (desc / 2 ^ 40 % 2 ^ 24) (scaleEndB k.fb)
    if s.active = 0 then .done s.advance
    else if past then .trap (permTrap s.active k.sa)
    else
      match s.rowPast (k.spans s.active) with
      | some va => .trap (permTrap s.active va)
      | none =>
        match s.checkSpans .kf s.active (k.spans s.active) with
        | .error (u, t) => .trapIn u t
        | .ok (s', later) =>
          let u := s'.openEngine i k.nums later
          .done (u.modOp (u.nextOp - 1) fun o => { o with holds := s.quadHolds t d a })

/-- KMMA (R227 to R229). -/
def execKmma (d h a la : Nat) (s : State) : Host.Outcome State Fault Refusal :=
  issue (.kmma d h a la) (fun s => s.issueStep (.kmma d h a la) false d h a) s

/-- KMMA.PAIR (R231). -/
def execKmmaPair (d h a la : Nat) (s : State) : Host.Outcome State Fault Refusal :=
  issue (.kmmaPair d h a la) (fun s => s.issueStep (.kmmaPair d h a la) true d h a) s

/-- A drain as its operation holds it (R233). -/
structure Drain where
  tile : Nat
  ctl : Nat
  alpha : Nat
  seed : Nat
  limit : Nat
  status : Nat
  res : Nat
  base : Nat
  stride : Nat
  reg : Nat
  row : Nat
deriving DecidableEq, Repr

def Drain.nums (x : Drain) : List Nat :=
  [x.tile, x.ctl, x.alpha, x.seed, x.limit, x.status, x.res, x.base, x.stride, x.reg, x.row]

def Drain.of (n : List Nat) : Drain :=
  let g := fun i => n.getD i 0
  { tile := g 0, ctl := g 1, alpha := g 2, seed := g 3, limit := g 4, status := g 5, res := g 6, base := g 7, stride := g 8
    reg := g 9, row := g 10 }

/-- The fields of the control word. -/
def Drain.fmt (x : Drain) : Nat := x.ctl / 16 % 16
def Drain.rm (x : Drain) : Rm := Rm.ofCode (x.ctl / 2 ^ 8 % 8)
def Drain.sat (x : Drain) : Bool := Nat.testBit x.ctl 11
def Drain.drop (x : Drain) : Bool := Nat.testBit x.ctl 12
def Drain.hasRes (x : Drain) : Bool := Nat.testBit x.ctl 13
def Drain.toRegs (x : Drain) : Bool := Nat.testBit x.ctl 14
def Drain.tr (x : Drain) : Bool := Nat.testBit x.ctl 15
def Drain.keep (x : Drain) : Bool := Nat.testBit x.ctl 16
def Drain.nb (x : Drain) : Nat := x.ctl / 2 ^ 17 % 4
def Drain.col (x : Drain) : Nat := x.ctl / 2 ^ 19 % 64
def Drain.nreg (x : Drain) : Nat := x.ctl / 2 ^ 25 % 32 + 1

/-- The width of a drained element (R233). -/
def drainWidth (fmt : Nat) : Nat := [32, 16, 16, 8, 8, 6, 6, 4, 32, 8, 8, 4, 4].getD fmt 0

/-- The rows that a drain to memory writes: tangent rows only in the wide formats (R234). -/
def Drain.rows (x : Drain) (d : Nat) (act : Mask) : List Nat :=
  (activeRows act x.nb).filter fun r => !(x.tr && decide (3 ≤ x.fmt) && r / 32 % (1 + d) != 0)

/-- The ranges that a drain reads and writes. -/
def Drain.spans (x : Drain) (d : Nat) (act : Mask) : List Span :=
  if x.toRegs then []
  else
    let n := 64 * drainWidth x.fmt / 8
    (x.rows d act).flatMap fun r =>
      (⟨r % 32, (x.base + r * x.stride) % 2 ^ 64, n, true⟩ : Span) ::
        (if x.hasRes then [⟨r % 32, (x.res + r * x.stride) % 2 ^ 64, n, false⟩] else [])

/-- KDRN (R233, R234). -/
def execKdrn (d h a la : Nat) (s : State) : Host.Outcome State Fault Refusal :=
  issue (.kdrn d h a la) (fun s =>
    match s.myTeam with
    | none => .trap (Trap.plain causeIllegal 0 s.active)
    | some t =>
      let c := (s.rdSd d).toNat
      let hd := s.handle h
      let x : Drain :=
        { tile := t.tileAt (c % 16), ctl := c, alpha := (s.rdSd (d + 1)).toNat, seed := (s.rdSd64 (d + 2)).toNat
          limit := (s.rdSd (d + 4)).toNat, status := d + 5, res := (s.rdSd64 (d + 6)).toNat, base := hd.base
          stride := hd.word, reg := a, row := 0 }
      match s.checkSpans .kf s.active (x.spans s.d s.active) with
      | .error (u, t) => .trapIn u t
      | .ok (s, later) => .done (s.openEngine (.kdrn d h a la) x.nums later)) s

/-- KZERO (R235). -/
def execKzero (t la : Nat) (s : State) : Host.Outcome State Fault Refusal :=
  issue (.kzero t la) (fun s =>
    .done (s.openEngine (.kzero t la) [match s.myTeam with | some tm => tm.tileAt t | none => 0])) s

/-- KSTAT (R236). -/
def execKstat (d t la : Nat) (s : State) : Host.Outcome State Fault Refusal :=
  issue (.kstat d t la) (fun s =>
    .done (s.openEngine (.kstat d t la) [match s.myTeam with | some tm => tm.tileAt t | none => 0, d])) s

/-! ## Order among operations -/

/-- No earlier operation works on a tile of this one (R226, R234 to R236). -/
def State.tileFirst (s : State) (o : Op) : Bool :=
  !(s.ops.any fun e => e.path == some .kf && !e.complete && decide (e.id < o.id) && e.tilesOf.any o.tilesOf.contains)

/-- The Kerf class of a group's launch (R230, R388). -/
def State.kerfClassOf (s : State) (gs : Nat) : Nat :=
  match (s.anyGroup? gs).bind fun g => s.gridOf g.team with
  | some g => fieldAt g.packet 0x24 4 / 2 ^ 15 % 4
  | none => 0

/-- The cores whose fetch units and arrays a step takes. -/
def Op.cores (o : Op) : List Nat :=
  if isStep o.cap.instr && (KStep.of o.nums).pair then [coreOf o.gs, (KStep.of o.nums).tile2 / 16] else [coreOf o.gs]

/-- Other steps that have not left the array of one of an operation's cores. -/
def State.stepsBeside (s : State) (o : Op) : List Op :=
  s.ops.filter fun e =>
    isStep e.cap.instr && !e.complete && e.id != o.id && e.cores.any o.cores.contains
    && decide ((KStep.of e.nums).slot < (KStep.of e.nums).slots)

/-- One step goes before another at a unit: by class, then the one that the unit works on, then by issue (R230, R372). -/
def State.goesBefore (s : State) (works : Op → Bool) (a b : Op) : Bool :=
  let x := s.kerfClassOf a.gs
  let y := s.kerfClassOf b.gs
  decide (y < x) || (x == y && ((works a && !works b) || (works a == works b && decide (a.id < b.id))))

/-- The core of a pair's follower (R231), and that of a side. -/
def Op.followerCore (o : Op) : Nat := (KStep.of o.nums).tile2 / 16
def Op.sideCore (o : Op) (two : Bool) : Nat := if two then o.followerCore else coreOf o.gs

/-- The sides of steps that a core's fetch unit and its two buffers serve: of those that have not left the array. -/
def State.fetchesAt (s : State) (core : Nat) : List (Op × Bool) :=
  (s.ops.filter fun e => isStep e.cap.instr && !e.complete && decide ((KStep.of e.nums).slot < (KStep.of e.nums).slots)).flatMap
    fun e => ((KStep.of e.nums).sides.filter fun two => e.sideCore two == core).map (e, ·)

/-- A side of a step has an operand buffer, its fetch being under way or over (R370, R372). -/
def buffered (x : Op × Bool) : Bool := (KStep.of x.1.nums).buffered x.2

/-- A side's fetch may go on: it is not over, no fault has stopped it, and it has a buffer or finds one of the two of its core free
(R370). -/
def State.fetchReady (s : State) (x : Op × Bool) : Bool :=
  let k := KStep.of x.1.nums
  isStep x.1.cap.instr && !x.1.complete && k.sides.contains x.2 && !k.hasFetched x.2
  && (x.1.suspended.isNone || k.halted != sideCode x.2)
  && (buffered x
      || decide (((s.fetchesAt (x.1.sideCore x.2)).filter fun y => buffered y && !(y.1.id == x.1.id && y.2 == x.2)).length < 2))

/-- A side is fetched next by its core's unit: of those that can be it is the first; a fetch in progress pauses for a higher class
(R372). -/
def State.mayFetch (s : State) (x : Op × Bool) : Bool :=
  let core := x.1.sideCore x.2
  let works := fun (e : Op) => (KStep.of e.nums).sides.any fun two => e.sideCore two == core && buffered (e, two)
  s.fetchReady x && !((s.fetchesAt core).any fun y => y.1.id != x.1.id && s.fetchReady y && s.goesBefore works y.1 x.1)

/-- Every instruction that writes a held register and was issued before has completed (R228). -/
def State.bReady (s : State) (o : Op) : Bool :=
  o.holds.all fun h =>
    match s.anyGroup? h.1 with
    | some g => !(g.frags.any fun f => f.wins.any fun w => decide (w.op < o.id) && !s.opDone w.op && w.regs.contains h.2)
    | none => true

/-- The step could take the array at this slot boundary, but for other steps. -/
def State.stepReady (s : State) (o : Op) : Bool :=
  let k := KStep.of o.nums
  isStep o.cap.instr && !o.complete && o.suspended.isNone && k.loaded && decide (k.slot < k.slots) && s.bReady o && s.tileFirst o

/-- The step has begun on the array. -/
def Op.runs (o : Op) : Bool := decide (0 < (KStep.of o.nums).slot)

/-- A pair operation that has begun and not completed. -/
def Op.pairRuns (o : Op) : Bool := isStep o.cap.instr && !o.complete && (KStep.of o.nums).pair && o.runs

/-- Another pair operation holds the follower's array that a step would take (R231). -/
def State.reserved (s : State) (o : Op) : Bool :=
  s.ops.any fun e => e.pairRuns && e.id != o.id && o.cores.contains e.followerCore

/-- Two steps contend for an array now: a pair that has begun contends no more on its follower's core, which is reserved (R373). -/
def contends (a b : Op) : Bool :=
  a.cores.any fun c => b.cores.contains c && !(a.pairRuns && c == a.followerCore) && !(b.pairRuns && c == b.followerCore)

/-- Whether the step takes the array now (R230, R231, R372, R373): no pair reserves an array it needs, and of the steps that could
take one it goes first: the highest class, then the one that runs, then issue order. -/
def State.takesArray (s : State) (o : Op) : Bool :=
  s.stepReady o && !s.reserved o
  && !((s.stepsBeside o).any fun e => contends e o && s.stepReady e && !s.reserved e && s.goesBefore Op.runs e o)

/-- A pair operation holds the follower's array, and this operation is one of the follower's team: it waits (R231). KSTAT does not,
for it reports the pair meanwhile (R236, R373). DEDUCED (log entry 26), safe. -/
def State.followerWaits (s : State) (o : Op) : Bool :=
  match (s.anyGroup? o.gs).bind fun g => s.team? g.team with
  | some t => s.ops.any fun e => e.pairRuns && e.id != o.id && t.tiles.contains (KStep.of e.nums).tile2
  | none => false

/-! ## The stages of a step -/

/-- Ranges read one after another, with the number and part under which each is kept. -/
def State.readParts (s : State) (grid ctx : Nat) :
    List (Nat × Nat × Nat × Nat) → Except (Nat × Reach) (List Nat × List Returned)
  | [] => .ok ([], [])
  | (lane, part, va, n) :: rest =>
    match s.engineRead grid ctx va n, s.keys grid ctx Need.load va n with
    | .ok bs, .ok ks =>
      match s.readParts grid ctx rest with
      | .ok (kt, rt) => .ok (ks ++ kt, { lane := lane, part := part, sector := 0, data := leNat bs } :: rt)
      | .error e => .error e
    | .error e, _ => .error e
    | _, .error e => .error e

/-- The clock of a fetch in which a part is read: eight rows in each, with their scales (R370). -/
def fetchClock (lane part : Nat) : Nat :=
  if part = 3 then lane / 4 else if part = 2 ∨ part = 7 then 8 * lane else if part = 4 then 0 else lane / 8

/-- The parts of a step that a side's buffer does not hold yet. -/
def Op.unread (o : Op) (two : Bool) : List (Nat × Nat × Nat × Nat) :=
  ((KStep.of o.nums).parts o.cap.act two).filter fun x => !(o.got.any fun r => r.lane == x.1 && r.part == x.2.1)

/-- The parts that the next clock of its fetch reads. -/
def Op.nextParts (o : Op) (two : Bool) : List (Nat × Nat × Nat × Nat) :=
  match ((o.unread two).map fun x => fetchClock x.1 x.2.1).min? with
  | none => []
  | some c => (o.unread two).filter fun x => fetchClock x.1 x.2.1 == c

/-- A clock of a side's fetch: it has a buffer from here on, even where a fault stops it, and a clock's rows and scales come into that; what
has been read stays there. A fault that meets an operation which is suspended on the other side waits for that one's answer. -/
def State.fetchSide (s : State) (o : Op) (two : Bool) : State :=
  let k := (KStep.of o.nums).takesBuffer two
  let (grid, ctx) := s.placeOf o.gs
  match s.readParts grid ctx (o.nextParts two) with
  | .error e =>
    let stops := o.suspended.isNone && !e.2.waits
    let o' := { o with begun := true, nums := { k with halted := if stops then sideCode two else k.halted }.nums }
    let s := s.modOp o.id fun _ => o'
    if stops then s.stopOp o' e false else s
  | .ok (ks, got) =>
    match s.acceptFrom (s.budgetOf o.gs) (o.sideCore two) ks with
    | none => s.modOp o.id fun o => { o with begun := true, nums := k.nums }
    | some s =>
      match s.checkAllLate o ((o.nextParts two).map fun x => (false, x.2.2)) with
      | .error stopped => stopped
      | .ok s =>
        let o' := { o with begun := true, got := o.got ++ got }
        (s.engineMeets false ks).modOp o.id fun _ => { o' with nums := (k.setFetched two (o'.unread two).isEmpty).nums }

/-- KERF_FETCH (R370, R372, R373): a clock of the fetch of one of the sides that may go on. -/
def State.kerfFetch (s : State) (id : Nat) : State :=
  match s.op? id with
  | none => s
  | some o =>
    let sides := (KStep.of o.nums).sides.filter fun two => s.mayFetch (o, two)
    match sides[Config.choice s.tick % sides.length]? with
    | none => s
    | some two => s.draw.fetchSide o two

/-- A datum of the operand buffer. -/
def Op.part (o : Op) (part lane : Nat) : Nat :=
  match o.got.find? fun r => r.part == part && r.lane == lane with | some r => r.data | none => 0

/-- The scaled value of element k of a packed run (R46). -/
def scaledElem (code packed scales band k : Nat) : Exact :=
  let f := formatOf code
  let w := elemWidth f.1
  let v := elemValue f.1 (packed / 2 ^ (k * w) % 2 ^ w)
  let v := if f.2.1 = 0 then v else v.mul (scaleValue f.2.1 (scales / 2 ^ (8 * (k / f.2.2.1)) % 256))
  if f.2.2.2 then v.mul (scaleValue 4 band) else v

/-- The sum of a group of 32 terms, aligned to the largest and truncated, and whether it sets NV (R57, R58). -/
def groupSum (ts : List Exact) : Exact × Bool :=
  if ts.any fun t => match t with | .nan => true | _ => false then (.nan, true)
  else
    let pos := ts.any fun t => match t with | .inf n => !n | _ => false
    let neg := ts.any fun t => match t with | .inf n => n | _ => false
    if pos && neg then (.nan, true)
    else if pos || neg then (.inf neg, false)
    else
      let top := ts.foldl (fun (m : Option Int) t =>
        match t with
        | .num _ a e =>
          if a = 0 then m
          else
            let x := (Nat.log2 a : Int) + e
            match m with | none => some x | some y => some (max x y)
        | _ => m) none
      match top with
      | none => (.zero, false)
      | some top =>
        let q := top - 30
        let sum := ts.foldl (fun (v : Int) t =>
          match t with
          | .num n a e => let u : Int := roundTo .rtz n 0 a e q; if n then v - u else v + u
          | _ => v) 0
        (if sum = 0 then .zero else .num (decide (sum < 0)) sum.natAbs q, false)

/-- A sum rounded into a format, with OV and NV (R57, R58). -/
def accumulate (F : Format) (a b : Exact) : Nat × Bool × Bool :=
  let x := a.add .rne b
  let nv := match a, b with | .inf m, .inf n => m != n | _, _ => false
  (F.pack .rne false 0 x, F.overflows .rne 0 x, nv)

/-- The columns of B at a slot: 64 lists of 32 values. -/
def State.bValues (s : State) (o : Op) (k : KStep) : List (List Exact) :=
  (List.range 64).map fun j =>
    let h := o.holds.getD (j / 16 * 16 + j % 16) (0, 0)
    let g := (s.anyGroup? h.1).getD Group.empty
    let packed := (List.range 32).foldl (fun n l => n + (g.vword h.2 0 l).toNat * 2 ^ (32 * l)) 0
    (List.range 32).map fun i => scaledElem k.fb packed (o.part 3 j) (o.part 4 0) (32 * k.slot + i)

/-- One element of a tile takes a group sum. -/
def Tile.addTo (t : Tile) (key : Nat) (ts : List Exact) : Tile :=
  let g := groupSum ts
  let r := accumulate e8m15 (e8m15.value (sget 0 t.nar key)) g.1
  { t with nar := sset 0 t.nar key r.1, ov := t.ov || r.2.1, nv := t.nv || g.2 || r.2.2 }

/-- Elements whose group has no term take +0: a −0 becomes +0, and nothing else changes (R57). -/
def Tile.settleZeros (t : Tile) : Tile := { t with nar := t.nar.filter fun e => e.2 != e8m15.signWeight }

/-- A tangent block of a step whose A format drops it (R229). -/
def KStep.drops (k : KStep) (d r : Nat) : Bool := k.tr && decide (2 < k.fa) && r / 32 % (1 + d) != 0

/-- A slot applied to a tile with the rows that stand under a part number. -/
def State.applySlot (s : State) (o : Op) (k : KStep) (d : Nat) (bs : List (List Exact)) (tile part : Nat) : State :=
  let rows := (activeRows o.cap.act k.nb).filter fun r => !k.drops d r
  let t := rows.foldl (fun (t : Tile) r =>
    let as := (List.range 32).map fun i =>
      scaledElem k.fa (o.part part r) (o.part (part + 1) r) (o.part (part + 2) (r / 64)) (32 * k.slot + i)
    (List.range 64).foldl (fun (t : Tile) j => t.addTo (r * 64 + j) (List.zipWith Exact.mul as (bs.getD j []))) t)
    (s.tile tile).settleZeros
  let dropped := k.tr && decide (2 < k.fa)
  s.setTile tile { t with td := t.td || dropped, c := if k.slot + 1 = k.slots then (t.c + 1) % 17 else t.c }

/-- The tangent planes of an operation's group. -/
def State.planesOf (s : State) (gs : Nat) : Nat := match s.anyGroup? gs with | some g => g.tangents | none => 0

/-- The array clocks a class may take of a core in a window: KSHARE's byte in 1/256 of a µs (R402). -/
def State.kerfLimit (s : State) (core budget c : Nat) : Nat :=
  let share := (s.budget budget).kshare.toNat / 2 ^ (8 * c) % 256
  25 * (16 + (sget Cluster.reset s.clusters (core / 4)).fcur) * share / 256

/-- The promotion of every element of a tile (R57, R59). -/
def Tile.promote (t : Tile) : Tile :=
  let keys := (t.acc.map (·.1) ++ t.nar.map (·.1)).eraseDups
  let t := keys.foldl (fun (t : Tile) key =>
    let r := accumulate f32 (f32.value (sget 0 t.acc key)) (e8m15.value (sget 0 t.nar key))
    { t with acc := sset 0 t.acc key r.1, ov := t.ov || r.2.1, nv := t.nv || r.2.2 }) t
  { t with nar := [], c := 0 }

/-- The follower's tile of a pair operation: none where its team has retired or is in a save unit, for the tile is another's then (R231,
R368). -/
def State.followerTile (s : State) (o : Op) : Option Nat :=
  let k := KStep.of o.nums
  if k.pair then
    ((s.anyGroup? o.gs).bind fun g => s.team? g.team).bind fun t =>
      (s.follower t).bind fun f => if f.ended || f.saved then none else some k.tile2
  else none

/-- KERF_SLOT (R370, R371): one group slot on the array; the last lets go of B, and ends the step unless it promotes. -/
def State.kerfSlot (s : State) (id : Nat) : State :=
  match s.op? id with
  | none => s
  | some o =>
    if !s.takesArray o then s
    else
      let k := KStep.of o.nums
      let core := coreOf o.gs
      let b := s.budgetOf o.gs
      let c := s.kerfClassOf o.gs
      let clocks := if k.slot = 0 then classClocks (kerfClass (formatOf k.fa).1) else 0
      match s.accept b (chargeKerf c) core (s.kerfLimit core b c) clocks with
      | none => s
      | some s =>
        let d := s.planesOf o.gs
        let bs := s.bValues o k
        let s := s.applySlot o k d bs k.tile 0
        let s := match s.followerTile o with | some p => s.applySlot o k d bs p 5 | none => s
        let last := decide (k.slot + 1 = k.slots)
        let due := last && decide (k.p ≤ (s.tile k.tile).c)
        let due2 := last && (s.followerTile o).any fun p => decide (k.p ≤ (s.tile p).c)
        let s := s.modOp id fun o =>
          { o with nums := { k with slot := k.slot + 1, promote := due || due2 }.nums
                   holds := if last then [] else o.holds }
        if last && !(due || due2) then s.closeOp id else s

/-- KERF_PROMOTION (R57, R370): tiles whose count has come to P are promoted, and the step completes. -/
def State.kerfPromotion (s : State) (id : Nat) : State :=
  match s.op? id with
  | none => s
  | some o =>
    let k := KStep.of o.nums
    if isStep o.cap.instr && !o.complete && k.promote then
      let one := fun (s : State) (p : Nat) => if k.p ≤ (s.tile p).c then s.setTile p (s.tile p).promote else s
      let s := one s k.tile
      let s := match s.followerTile o with | some p => one s p | none => s
      s.closeOp id
    else s

/-! ## Drains -/

/-- The conversion of a drained value, and whether it clamps (R53, R234). -/
def Drain.convert (x : Drain) (rnd y : Nat) : Nat × Bool :=
  let v := f32.value y
  let float := fun (F : Format) =>
    let plain := F.pack x.rm false rnd v
    let out := F.pack x.rm x.sat rnd v
    let out := match F.extremes, v with | .none, .nan => 0 | _, _ => out
    let beyond := match F.extremes with
      | .none => (match v with | .num .. => F.overflows x.rm rnd v | _ => true)
      | _ => false
    (out, beyond || (x.sat && out != plain))
  let int := fun (t : IntType) =>
    let beyond := match v with
      | .num n m e => let u : Int := roundTo x.rm n rnd m e 0; t.clamp (if n then -u else u) != (if n then -u else u)
      | _ => true
    (t.convert x.rm rnd v, beyond)
  match x.fmt with
  | 0 => float f32 | 1 => float f16 | 2 => float bf16 | 3 => float f8e4 | 4 => float f8e5 | 5 => float f6e3
  | 6 => float f6e2 | 7 => float f4
  | 8 => int ⟨true, 32⟩ | 9 => int ⟨true, 8⟩ | 10 => int ⟨false, 8⟩ | 11 => int ⟨true, 4⟩ | _ => int ⟨false, 4⟩

/-- The residual's element as F32 (R233). -/
def Drain.residual (x : Drain) (c : Nat) : Exact :=
  match x.fmt with | 0 => f32.value c | 1 => f16.value c | _ => bf16.value c

/-- The row whose coordinate dropout takes (R234). -/
def Drain.valueRow (x : Drain) (d r : Nat) : Nat :=
  if x.tr then r / 32 / (1 + d) * (1 + d) * 32 + r % 32 else r

/-- One drained element: its code, and whether its conversion clamps (R234). -/
def Drain.element (x : Drain) (t : Tile) (d r j : Nat) (res : Option Nat) : Nat × Bool :=
  let acc := sget 0 t.acc (r * 64 + j)
  let y := match res with
    | some c => ne32 (((f32.value x.alpha).mul (f32.value acc)).add .rne (x.residual c))
    | none => mul32 x.alpha acc
  let kd := ne32 (Exact.div (.num false 1 32) (.num false (2 ^ 32 - x.limit) 0))
  let y := if x.drop then (if coordHash x.seed (x.valueRow d r) j < x.limit then 0 else mul32 y kd) else y
  x.convert (coordHash x.seed r (64 + j) % 65536) y

/-- The rows from a number on, written one after another; a fault, or a row that its budget does not admit yet, leaves the row it
stands at (R225, R234, R403); none where the drain has ended by then. -/
def State.drainRows (s : State) (o : Op) (x : Drain) (d : Nat) :
    List Nat → Except (State × Option (Nat × (Nat × Reach) × Bool)) State
  | [] => .ok s
  | r :: rest =>
    let (grid, ctx) := s.placeOf o.gs
    let w := drainWidth x.fmt
    let n := 64 * w / 8
    let va := (x.base + r * x.stride) % 2 ^ 64
    let resVa := (x.res + r * x.stride) % 2 ^ 64
    match if x.hasRes then s.engineRead grid ctx resVa n else .ok [] with
    | .error e => .error (s, some (r, e, false))
    | .ok res =>
      match s.keys grid ctx Need.store va n with
      | .error e => .error (s, some (r, e, true))
      | .ok ks =>
        match s.acceptMem o.gs (ks ++ (if x.hasRes then (s.keys grid ctx Need.load resVa n).toOption.getD [] else [])) with
        | none => .error (s, some (r, (va, .no ⟨0, false, 0⟩), true))
        | some s =>
        match s.checkAllLate o ((if x.hasRes then [(false, resVa, n)] else []) ++ [(true, va, n)]) with
        | .error stopped => .error (stopped, none)
        | .ok s =>
        let es := (List.range 64).map fun j =>
          x.element (s.tile x.tile) d r j (if x.hasRes then some (leNat res / 2 ^ (w * j) % 2 ^ w) else none)
        let packed := (es.zip (List.range 64)).foldl (fun v e => v + e.1.1 * 2 ^ (w * e.2)) 0
        let t := s.tile x.tile
        let s := s.setTile x.tile { t with sat := t.sat || es.any (·.2) }
        (s.engineStore o.gs 2 o.region o.leaves ks (leBytes n packed)).drainRows o x d rest

/-- The drain's end: the status word, the tile's flags, the tile (R234). -/
def State.drainEnd (s : State) (o : Op) (x : Drain) (td : Bool) : State :=
  let t := s.tile x.tile
  let word := flagNat t.ov + 2 * flagNat t.nv + 4 * flagNat t.sat + 8 * flagNat (t.td || td)
  let s := s.modGroup o.gs fun g => { g with sregs := sset 0 g.sregs x.status (BitVec.ofNat 32 word) }
  (s.setTile x.tile (if x.keep then { t with ov := false, nv := false, sat := false, td := false } else Tile.zero)).closeOp o.id

/-- The words of a drain to registers, for one lane and one row: each register's word (R234). -/
def Drain.words (x : Drain) (t : Tile) (d r : Nat) : List (Nat × Bool × Bool) :=
  (List.range x.nreg).map fun i =>
    if x.fmt = 0 then
      let e := x.element t d r (x.col + i) none
      (e.1, e.2 && x.sat, false)
    else
      let a := x.element t d r (x.col + 2 * i) none
      let b := x.element t d r (x.col + 2 * i + 1) none
      (a.1 + 65536 * b.1, a.2 && x.sat, b.2 && x.sat)

/-- A plane word with the parts of elements that SAT changed set to +0 (R74, R234). -/
def Drain.planeWord (x : Drain) (p : Nat) (low high : Bool) : Nat :=
  if x.fmt = 0 then (if low then 0 else p)
  else (if low then 0 else p % 65536) + (if high then 0 else p / 65536 * 65536)

/-- A drain to registers: values from the value block, planes from the tangent blocks under TR (R234). -/
def State.drainRegs (s : State) (o : Op) (x : Drain) (d : Nat) : State :=
  let t := s.tile x.tile
  let b := if x.tr then x.nb * (1 + d) else x.nb
  let lanes := lanesOf o.cap.act
  let ws := lanes.flatMap fun l =>
    let vals := x.words t d (32 * b + l)
    let planes := (List.range d).map fun k => if x.tr then x.words t d (32 * (b + 1 + k) + l) else []
    (List.range x.nreg).flatMap fun i =>
      let v := vals.getD i (0, false, false)
      (vkey (x.reg + i) 0 l, BitVec.ofNat 32 v.1) :: (List.range d).map fun k =>
        let p := (planes.getD k []).getD i (0, false, false)
        (vkey (x.reg + i) (k + 1) l, BitVec.ofNat 32 (x.planeWord p.1 v.2.1 v.2.2))
  let clamps := lanes.any fun l =>
    ((List.range (if x.tr then d + 1 else 1)).any fun k =>
      (List.range (x.nreg * (if x.fmt = 0 then 1 else 2))).any fun j => (x.element t d (32 * (b + k) + l) (x.col + j) none).2)
  let s := s.setTile x.tile { t with sat := t.sat || clamps }
  -- planes that are infinite or NaN set TZ (R73): KDRN ignores MR, and TR is what asks for planes
  let bad := fun (l : Nat) => x.tr && !o.cap.noFlags.getLsbD l && ws.any fun w =>
    w.1 % 32 == l && w.1 / 32 % 16 != 0 && badPlane (x.fmt + 2) w.2
  s.modGroup o.gs fun g => (lanes.filter bad).foldl (fun (g : Group) l => g.addFlags l flagTZ) (g.putVs ws)

/-- KDRN_DRAIN (R234). -/
def State.kerfDrain (s : State) (id : Nat) : State :=
  match s.op? id with
  | none => s
  | some o =>
    match o.cap.instr with
    | .kdrn .. =>
      if o.complete || o.suspended.isSome || !s.tileFirst o || s.followerWaits o then s
      else
        let x := Drain.of o.nums
        let d := s.planesOf o.gs
        let s := s.setTile x.tile (s.tile x.tile).promote
        let s := s.modOp id fun o => { o with begun := true }
        if x.toRegs then (s.drainRegs o x d).drainEnd o x false
        else
          match s.drainRows o x d ((x.rows d o.cap.act).filter fun r => decide (x.row ≤ r)) with
          | .ok s => s.drainEnd o x (x.tr && decide (3 ≤ x.fmt))
          | .error (s, none) => s
          | .error (s, some (r, e, wr)) =>
            let o' := { o with begun := true, nums := { x with row := r }.nums }
            (s.modOp id fun _ => o').stopOp o' e wr
    | _ => s

/-- KZERO_CLEAR (R235). -/
def State.kerfZero (s : State) (id : Nat) : State :=
  match s.op? id with
  | none => s
  | some o =>
    match o.cap.instr with
    | .kzero .. => if o.complete || !s.tileFirst o || s.followerWaits o then s else (s.setTile (o.nums.headD 0) Tile.zero).closeOp id
    | _ => s

/-- A pair operation of another core holds the array of a core (R231, R236, R373). -/
def State.pairHolds (s : State) (core : Nat) : Bool := s.ops.any fun e => e.pairRuns && e.followerCore == core

/-- KSTAT_REPORT (R236). -/
def State.kerfStat (s : State) (id : Nat) : State :=
  match s.op? id with
  | none => s
  | some o =>
    match o.cap.instr with
    | .kstat .. =>
      if o.complete || !s.tileFirst o then s
      else
        let t := s.tile (o.nums.headD 0)
        let word := flagNat t.ov + 2 * flagNat t.nv + 4 * flagNat t.sat + 8 * flagNat t.td + 16 * (t.c % 16)
          + 256 * flagNat (s.pairHolds (coreOf o.gs))
        (s.modGroup o.gs fun g => { g with sregs := sset 0 g.sregs (o.nums.getD 1 0) (BitVec.ofNat 32 word) }).closeOp id
    | _ => s

/-- KERF_FETCH (R370). -/
def execEvKerfFetch (op : Nat) (s : State) : Host.Outcome State Fault Refusal := happen (fun s => s.kerfFetch op) s

/-- KERF_SLOT (R57, R370). -/
def execEvKerfSlot (op : Nat) (s : State) : Host.Outcome State Fault Refusal := happen (fun s => s.kerfSlot op) s

/-- KERF_PROMOTION (R57). -/
def execEvKerfPromotion (op : Nat) (s : State) : Host.Outcome State Fault Refusal := happen (fun s => s.kerfPromotion op) s

/-- KDRN_DRAIN (R234). -/
def execEvKdrnDrain (op : Nat) (s : State) : Host.Outcome State Fault Refusal := happen (fun s => s.kerfDrain op) s

/-- KZERO_CLEAR (R235). -/
def execEvKzeroClear (op : Nat) (s : State) : Host.Outcome State Fault Refusal := happen (fun s => s.kerfZero op) s

/-- KSTAT_REPORT (R236). -/
def execEvKstatReport (op : Nat) (s : State) : Host.Outcome State Fault Refusal := happen (fun s => s.kerfStat op) s

end Sys2Proof.Machine
end

