-- ==== Sys2Proof/Machine/Layout.lean ====
section
/-!
DEFINITION. Canonical references, node layouts, child boxes, and the tests of boxes, triangles, spheres and splats (R262 to R272).
-/
namespace Sys2Proof.Machine

/-! ## References (R262) -/

def refNone : Nat := 2 ^ 63
def refIsLeaf (r : Nat) : Bool := Nat.testBit r 63
def refIsInst (r : Nat) : Bool := Nat.testBit r 63 && Nat.testBit r 62
def refCount (r : Nat) : Nat := r / 2 ^ 32 % 256
def refFirst (r : Nat) : Nat := r % 2 ^ 32
def refLeaf (inst : Bool) (count first : Nat) : Nat := 2 ^ 63 + (if inst then 2 ^ 62 else 0) + count % 256 * 2 ^ 32 + first % 2 ^ 32

/-- A primitive leaf. -/
def refIsPrim (r : Nat) : Bool := refIsLeaf r && !Nat.testBit r 62

/-- The 56-bit form of a stack entry (R360). -/
def packRef (r : Nat) : Nat :=
  if refIsLeaf r then 2 ^ 55 + (if refIsInst r then 2 ^ 54 else 0) + r % 2 ^ 40 else r / 64 % 2 ^ 51

/-- A reference from its 56-bit form. -/
def unpackRef (p : Nat) : Nat :=
  if Nat.testBit p 55 then 2 ^ 63 + (if Nat.testBit p 54 then 2 ^ 62 else 0) + p % 2 ^ 40 else p % 2 ^ 51 * 64

/-! ## Layout descriptors (R264) -/

/-- A layout descriptor's 64 bytes. -/
abbrev Layout := List Byte

def Layout.root (x : Layout) : Nat := fieldAt x 0 8
def Layout.nodebase (x : Layout) : Nat := fieldAt x 8 8
def Layout.primbase (x : Layout) : Nat := fieldAt x 0x10 8
def Layout.instbase (x : Layout) : Nat := fieldAt x 0x18 8
def Layout.nsize (x : Layout) : Nat := fieldAt x 0x22 2
def Layout.pkind (x : Layout) : Nat := bitsAt x 0x20 10 9
def Layout.leafenc (x : Layout) : Nat := bitsAt x 0x20 8 8
def Layout.cref (x : Layout) : Nat := bitsAt x 0x20 7 6
def Layout.bfmt (x : Layout) : Nat := bitsAt x 0x20 5 4
def Layout.cc (x : Layout) : Nat := bitsAt x 0x20 3 0 + 1
def Layout.roff (x : Layout) : Nat := fieldAt x 0x26 2
def Layout.boff (x : Layout) : Nat := fieldAt x 0x24 2
def Layout.pstride (x : Layout) : Nat := fieldAt x 0x28 4

/-- The bytes of the bounds and of the references. -/
def Layout.boundBytes (x : Layout) : Nat := if x.bfmt = 0 then 24 * x.cc else 16 + 6 * x.cc
def Layout.refBytes (x : Layout) : Nat := if x.cref = 0 then 4 * x.cc else 8 * x.cc

/-- The descriptor obeys R264. -/
def Layout.ok (x : Layout) : Bool :=
  let sep := decide (x.boff + x.boundBytes ≤ x.roff) || decide (x.roff + x.refBytes ≤ x.boff)
  x.nsize % 64 == 0 && decide (64 ≤ x.nsize) && decide (x.nsize ≤ 1024) && bitsAt x 0x20 15 11 == 0
  && x.pkind != 3 && decide (x.cref < 2) && decide (x.bfmt < 2) && decide (2 ≤ x.cc)
  && x.nodebase % 64 == 0 && x.primbase % 4 == 0 && x.instbase % 64 == 0
  && x.pstride % 4 == 0 && decide ((if x.pkind = 0 then 36 else 16) ≤ x.pstride)
  && decide (x.boff + x.boundBytes ≤ x.nsize) && decide (x.roff + x.refBytes ≤ x.nsize) && sep
  && (x.cref == 1 || decide (x.root < 2 ^ 32)) && (x.drop 0x2C).all (· == 0)

/-- A child reference or root decoded; none where it is absent (R265). -/
def Layout.ref (x : Layout) (w : Nat) : Option Nat :=
  let leaf := fun (inst : Bool) =>
    if x.leafenc = 0 then refLeaf inst (w % 2 ^ 5) (w / 2 ^ 5 % 2 ^ 25) else refLeaf inst (w % 2 ^ 8) (w / 2 ^ 8 % 2 ^ 22)
  if x.cref = 0 then
    if w = 0xFFFFFFFF then none
    else if Nat.testBit w 31 then some (leaf (Nat.testBit w 30))
    else
      let a := x.nodebase + w * x.nsize
      if a < 2 ^ 57 then some a else none
  else if w = 2 ^ 64 - 1 then none
  else if Nat.testBit w 63 then (if w / 2 ^ 30 % 2 ^ 32 = 0 then some (leaf (Nat.testBit w 62)) else none)
  else if w < 2 ^ 57 ∧ w % 64 = 0 then some w
  else none

/-- The reference of child j of a node's bytes. -/
def Layout.child (x : Layout) (node : List Byte) (j : Nat) : Option Nat :=
  x.ref (if x.cref = 0 then fieldAt node (x.roff + 4 * j) 4 else fieldAt node (x.roff + 8 * j) 8)

/-- The box of child j: lo and hi on each axis; none where the child is missed without a test (R266). -/
def Layout.box (x : Layout) (node : List Byte) (j : Nat) : Option (List (Nat × Nat)) :=
  let axis := fun (i : Nat) =>
    if x.bfmt = 0 then (fieldAt node (x.boff + 24 * j + 4 * i) 4, fieldAt node (x.boff + 24 * j + 12 + 4 * i) 4)
    else
      let o := f32.value (fieldAt node (x.boff + 4 * i) 4)
      let e := (fieldAt node (x.boff + 12 + i) 1 : Int) - 127
      let q := fun (k : Nat) => Exact.num false (fieldAt node (x.boff + 16 + 6 * j + k) 1) e
      (f32.pack .rdn false 0 (o.add .rdn (q i)), f32.pack .rup false 0 (o.add .rup (q (3 + i))))
  let bs := [axis 0, axis 1, axis 2]
  let wild := x.bfmt == 1 && (List.range 3).any fun i => fieldAt node (x.boff + 12 + i) 1 == 255
  if wild || bs.any fun b => !le32 b.1 b.2 then none else some bs

/-! ## The ray's numbers -/

/-- A vector of three F32 codes of the record. -/
def vecAt (bs : List Byte) (off : Nat) : List Nat := [fieldAt bs off 4, fieldAt bs (off + 4) 4, fieldAt bs (off + 8) 4]

def recOrigin (bs : List Byte) : List Nat := vecAt bs 0
def recTmin (bs : List Byte) : Nat := fieldAt bs 0xC 4
def recDir (bs : List Byte) : List Nat := vecAt bs 0x10
def recTmax (bs : List Byte) : Nat := fieldAt bs 0x1C 4
def recNode (bs : List Byte) : Nat := fieldAt bs 0x30 8
def recHit (bs : List Byte) : List Nat := (List.range 5).map fun i => fieldAt bs (0x7C + 4 * i) 4

/-- The inverse direction (R263). -/
def inverse (d : List Nat) : List Nat := d.map (div32 0x3F800000)

/-- Min and Max of R55, for the box test (R268). -/
def least (a b : Nat) : Nat := f32.minMax false a b
def most (a b : Nat) : Nat := f32.minMax true a b

/-- One axis of a box: near and far; a NaN counts −∞ in near and +∞ in far. -/
def slab (o inv : Nat) (b : Nat × Nat) : Nat × Nat :=
  let t1 := mul32 (sub32 b.1 o) inv
  let t2 := mul32 (sub32 b.2 o) inv
  let low := fun t => if f32.isNan t then 0xFF800000 else t
  let high := fun t => if f32.isNan t then 0x7F800000 else t
  (least (low t1) (low t2), most (high t1) (high t2))

/-- The box's entry t, where the ray meets it within [tmin, B] (R268). -/
def boxEntry (o inv : List Nat) (tmin best : Nat) (box : List (Nat × Nat)) : Option Nat :=
  let ss := (List.range 3).map fun i => slab (o.getD i 0) (inv.getD i 0) (box.getD i (0, 0))
  let tn := ss.foldl (fun t x => most t x.1) tmin
  let tf := ss.foldl (fun t x => least t x.2) best
  if le32 tn tf then some tn else none

/-- Dot and Cross of R270. -/
def dot3 (a b : List Nat) : Nat :=
  fma32 (a.getD 2 0) (b.getD 2 0) (fma32 (a.getD 1 0) (b.getD 1 0) (mul32 (a.getD 0 0) (b.getD 0 0)))

def cross3 (a b : List Nat) : List Nat :=
  (List.range 3).map fun i =>
    let j := (i + 1) % 3
    let k := (i + 2) % 3
    fma32 (a.getD j 0) (b.getD k 0) (neg32 (mul32 (a.getD k 0) (b.getD j 0)))

def sub3 (a b : List Nat) : List Nat := (List.range 3).map fun i => sub32 (a.getD i 0) (b.getD i 0)

/-- A triangle's t and barycentrics, where the ray meets its plane inside it (R270). -/
def triangleHit (o d : List Nat) (p : List Byte) : Option (Nat × Nat × Nat) :=
  let v0 := vecAt p 0
  let e1 := sub3 (vecAt p 12) v0
  let e2 := sub3 (vecAt p 24) v0
  let s := sub3 o v0
  let pv := cross3 d e2
  let det := dot3 e1 pv
  if f32.isZero det || f32.isNan det then none
  else
    let u := div32 (dot3 s pv) det
    let qv := cross3 s e1
    let v := div32 (dot3 d qv) det
    let t := div32 (dot3 e2 qv) det
    if le32 0 u && le32 0 v && le32 (add32 u v) 0x3F800000 then some (t, u, v) else none

/-- A sphere's t (R271). -/
def sphereHit (o d : List Nat) (tmin : Nat) (p : List Byte) : Option (Nat × Nat × Nat) :=
  let r := fieldAt p 12 4
  let oc := sub3 o (vecAt p 0)
  let a := dot3 d d
  let b := dot3 oc d
  let k := sub32 (dot3 oc oc) (mul32 r r)
  let disc := fma32 b b (neg32 (mul32 a k))
  if lt32 disc 0 || f32.isNan disc then none
  else
    let q := sqrt32 disc
    let t1 := div32 (sub32 (neg32 b) q) a
    let t2 := div32 (add32 (neg32 b) q) a
    some (if le32 tmin t1 then t1 else t2, 0, 0)

/-- A splat's t and w (R271). -/
def splatHit (o d : List Nat) (p : List Byte) : Option (Nat × Nat × Nat) :=
  let c := vecAt p 0
  let r := fieldAt p 12 4
  let oc := sub3 o c
  let t := div32 (neg32 (dot3 oc d)) (dot3 d d)
  let m := (List.range 3).map fun i => fma32 t (d.getD i 0) (oc.getD i 0)
  let w := div32 (dot3 m m) (mul32 r r)
  if le32 w 0x3F800000 then some (t, w, 0) else none

/-- The list with an entry put after those it does not precede (R272). -/
def insertKid (x : Nat × Nat × Nat) : List (Nat × Nat × Nat) → List (Nat × Nat × Nat)
  | [] => [x]
  | y :: rest => if (f32.value x.1).below (f32.value y.1) then x :: y :: rest else y :: insertKid x rest

/-- ORDN's order: ascending t, −0 below +0, stable. -/
def sortKids (ks : List (Nat × Nat × Nat)) : List (Nat × Nat × Nat) := ks.foldl (fun m x => insertKid x m) []

end Sys2Proof.Machine
end

