-- ==== Sys2Proof/Machine/Cruiser.lean ====
section
/-!
DEFINITION. A ray in a Cruiser: how a micro-operation performs, faults or ends the ray, how the ray leaves the Cruiser, and the
22 micro-operations (R257 to R286, R361, R363, R475).
-/
namespace Sys2Proof.Machine

/-! ## The ray's place -/

/-- A ray by number, the selected one included. -/
def State.ray? (s : State) (id : Nat) : Option Ray :=
  if s.rayLive && s.ray.id == id then some s.ray else s.rays.find? fun r => r.id == id

/-- A ray put back in its place. -/
def State.putRay (s : State) (r : Ray) : State :=
  if s.rayLive && s.ray.id == r.id then { s with ray := r }
  else { s with rays := s.rays.map fun x => if x.id == r.id then r else x }

/-- The micro-PC (R275). -/
def Ray.mpc (r : Ray) : Nat := if r.past then 2048 else bitsAt r.bytes 0x2C 10 0
def Ray.setMpc (r : Ray) (n : Nat) : Ray := { r with bytes := setBitsAt r.bytes 0x2C 10 0 n, past := n == 2048 }

/-- The transient state starts empty (R263). -/
def Ray.fresh (r : Ray) : Ray :=
  { r with node := none, kids := [], cand := none, invd := inverse (recDir r.bytes), past := false, full := false }

/-! ## Faults and ends -/

/-- The OWNER to whom a ray that has left its Cruiser belongs: the one that its record held at the fault (R475). -/
def Ray.toOwner (r : Ray) : Nat := r.owner.getD (recOwner r.bytes)

/-- The record of a ray's fault (R451, R475). -/
def State.rayFault (s : State) (r : Ray) (why : NoAccess) (va : Nat) (wr : Bool) : FaultRec :=
  let gridId := match s.grid? r.grid with | some g => fieldAt g.packet 0x14 4 | none => 0
  { kind := 2, cause := why.cause, ctx := r.ctx, grid := gridId, gs := r.toOwner, vaddr := va
    paddr := if why.cause = 3 then why.pa else 0, record := r.record, info := (if wr then 1 else 0) + 2 * Path.cr.num
    time := s.now, target := r.id, mask := 0, seq := none }

/-- A record as a failed service leaves it: DONE, CODE 3, CAUSE kept, SUB 0x1008, and with that the rest of the fault that it holds
(R361, R363, R475). -/
def unserved (bs : List Byte) : List Byte :=
  setFaultInfo (setStatus bs statusDone 3) (bitsAt bs 0xAC 7 0) (bitsAt bs 0xAC 8 8) 0x1008 (fieldAt bs 0xB0 8) (bitsAt bs 0xB8 10 0)

/-- The same where the record itself was not reached: one that holds a fault or an end keeps it, any other gets the fault of the access to
it, for it has no CAUSE that could be kept. DESIGN CHOICE (log entry 32), unsafe for such a record's CAUSE, FADDR and FMPC. -/
def Ray.unreached (r : Ray) (cause : Nat) (bs : List Byte) : List Byte :=
  if recStatus bs = statusFaulted ∨ (recStatus bs = statusDone ∧ recCode bs = 3) then unserved bs
  else setFaultInfo (setStatus bs statusDone 3) cause (if r.stuck = 2 then 0 else 1) 0x1008 r.record (bitsAt bs 0x2C 10 0)

/-- The end of a ray whose record could not be reached: code 3 to its owner, and the record, which the Cruiser reads anew where it does
not hold it, as far as it can be written (R475). -/
def State.failStuck (s : State) (r : Ray) (cause : Nat) : State :=
  let held := if r.stuck = 2 then (s.engineRead r.grid r.ctx r.record 192).toOption else some r.bytes
  let ended := r.unreached cause (held.getD r.bytes)
  let s := if held.isNone then s
    else match s.writeRecord { r with bytes := ended } with | .ok s => s | .error _ => s
  s.putRay { r with bytes := ended, stuck := 0, faulted := none, code := some 3, only := true }

/-- A write-back or a take-up that did not come through: the ray keeps its slot and its fault is posted; bytes of a saved team,
or a stack that is not up, only keep it waiting (R364, R475). DEDUCED (log entry 32), unsafe. -/
def State.stick (s : State) (r : Ray) (kind : Nat) (why : Reach) (wr : Bool) : State :=
  match why with
  | .saved _ => s.putRay { r with stuck := kind }
  | .no n =>
    if n.cause = 0 then s.putRay { r with stuck := kind }
    else
      let s := s.countFailed n
      if n.service && s.ringInUse then
        let s := s.putRay { r with stuck := kind, faulted := some none }
        { s with faults := s.faults ++ [s.rayFault r n r.record wr] }
      else s.failStuck { r with stuck := kind } n.cause
  | _ => s.failStuck { r with stuck := kind } permFinal.cause

/-- A finished record is written back, and its results wait for delivery (R247, R363). -/
def State.settleDone (s : State) (r : Ray) : State :=
  match s.writeBack r with
  | .ok s => s.putRay { r with stuck := 0, faulted := none, code := some (recCode r.bytes) }
  | .error e => s.stick r 1 e.2 true

/-- Service failed: DONE, CODE 3, CAUSE kept, subcode 0x1008 (R363). -/
def State.failService (s : State) (r : Ray) : State :=
  s.settleDone { r with bytes := unserved (s.recordOf r), faulted := none, queued := false }

/-- The ray leaves the Cruiser: its record is written back whole; a faulted ray's fault is posted, and a ray that has ended or
is handed back waits for its delivery, and one whose launch had to wait for the write runs (R263, R281, R285, R363). -/
def State.leaveCruiser (s : State) (r : Ray) : State :=
  match s.writeBack r with
  | .error e => s.stick r 1 e.2 true
  | .ok s =>
    let r := { r with stuck := 0, node := none, kids := [], cand := none }
    let st := recStatus r.bytes
    if st = statusFaulted then
      let r := { r with owner := some (recOwner r.bytes) }
      let why : NoAccess := ⟨fieldAt r.bytes 0xAC 1, true, 0⟩
      let va := fieldAt r.bytes 0xB0 8
      if s.ringInUse then
        let pa := match s.page r.ctx va with | .page b n _ => b + va % n | .no w => w.pa
        let s := s.putRay { r with faulted := some none }
        { s with faults := s.faults ++ [s.rayFault r { why with pa := pa } va (bitsAt r.bytes 0xAC 8 8 == 1)] }
      else s.failService { r with faulted := some (some 0) }
    else if st = statusRunning then s.putRay { r with faulted := none }
    else if st = statusAnyhit then s.putRay { r with faulted := none, code := some 2 }
    else s.putRay { r with faulted := none, code := some (recCode r.bytes) }

/-- The end of a ray by R283, at the microword it stands at. -/
def Ray.ended (r : Ray) (sub : Nat) : Ray :=
  { r with bytes := setFaultInfo (setStatus r.bytes statusDone 3) 4 0 sub 0 (bitsAt r.bytes 0x2C 10 0) }

def State.endRay (s : State) (sub : Nat) : State := s.leaveCruiser (s.ray.ended sub)

/-- A micro-operation faults: FAULTED, or ended where no service can help (R285, R452). -/
def State.faultRay (s : State) (va : Nat) (why : NoAccess) (wr : Bool) : State :=
  let r := s.ray
  let w := if wr then 1 else 0
  let mpc := bitsAt r.bytes 0x2C 10 0
  let s := s.countFailed why
  if why.service then s.leaveCruiser { r with bytes := setFaultInfo (setStatus r.bytes statusFaulted 0) why.cause w 0 va mpc }
  else s.leaveCruiser { r with bytes := setFaultInfo (setStatus r.bytes statusDone 3) why.cause w 0x1008 va mpc }

/-! ## A step -/

/-- What a micro-operation comes to. -/
inductive Stepped where
  | go (s : State) (r : Ray)
  | fault (va : Nat) (why : NoAccess) (wr : Bool)
  | ends (sub : Nat)
  | waits

/-- The step count and its limit (R284, R359). -/
def Ray.steps (r : Ray) : Nat := if r.full then 2 ^ 24 else bitsAt r.bytes 0x20 23 0
def Ray.limit (r : Ray) : Nat := let n := bitsAt r.bytes 0x24 23 0; if n = 0 then 2 ^ 24 else n
def Ray.count (r : Ray) : Ray :=
  { r with bytes := setBitsAt r.bytes 0x20 23 0 (r.steps + 1), full := r.steps + 1 == 2 ^ 24 }

/-- The ray's program id (R359). -/
def Ray.progId (r : Ray) : Nat := bitsAt r.bytes 0x20 31 24

/-- The image of the ray's program in its core's microcode store (R245). -/
def State.stored? (s : State) (r : Ray) : Option Microcode :=
  s.codes.find? fun m => m.core == r.core && m.grid == r.grid && m.id == r.progId

/-- The entry of the ray's program in its grid's table (R245). -/
def State.tableEntry (s : State) (r : Ray) : Except (Nat × Reach) (List Byte) :=
  let ptab := match s.grid? r.grid with | some g => fieldAt g.packet 0x58 8 | none => 0
  s.engineRead r.grid r.ctx (ptab + 16 * r.progId) 16

/-- The program bound to the ray's id: image address and length; none where it is not bound or cannot be read (R245, R283). -/
def State.program (s : State) (r : Ray) : Option (Nat × Nat) :=
  match s.stored? r with
  | some m => some (m.base, m.image.length / 4)
  | none =>
    if (match s.grid? r.grid with | some g => fieldAt g.packet 0x58 8 | none => 0) = 0 then none
    else
      match s.tableEntry r with
      | .ok e => if fieldAt e 8 4 / 2 ^ 31 = 1 then some (fieldAt e 0 8, fieldAt e 8 4 % 4096) else none
      | .error _ => none

/-- The whole image of the ray's program, as the store holds it or memory does. -/
def State.image (s : State) (r : Ray) : Except (Nat × Reach) (List Byte) :=
  match s.stored? r, s.program r with
  | some m, _ => .ok m.image
  | none, some (base, n) => s.engineRead r.grid r.ctx base (4 * n)
  | none, none => .ok []

/-- The word at the micro-PC. -/
def State.microword (s : State) (r : Ray) : Option Nat := (s.image r).toOption.map fun bs => fieldAt bs (4 * r.mpc) 4

/-- As many images, the first ones, as 2,048 words hold (R1). -/
def capWords : Nat → List Microcode → List Microcode
  | _, [] => []
  | n, m :: ms => if m.image.length ≤ n then m :: capWords (n - m.image.length) ms else []

/-- The Cruiser fetches the image of the ray's program into its microcode store on demand: where the store does not hold it, or a free
choice says that it does not hold it any more (R245). DEDUCED (log entry 31), safe. -/
def State.fetchImage (s : State) (r : Ray) : State :=
  if (s.stored? r).isSome && Config.choice s.tick % 2 == 0 then s.draw
  else
    let keep := s.codes.filter fun m => !(m.core == r.core && m.grid == r.grid && m.id == r.progId)
    let s := if (s.stored? r).isSome then { s with codes := keep }.draw else s
    match s.program r, s.image r with
    | some (base, _), .ok bs =>
      let mine := { core := r.core, grid := r.grid, id := r.progId, base := base, image := bs } :: keep.filter (·.core == r.core)
      { s with codes := capWords 8192 mine ++ keep.filter (·.core != r.core) }
    | _, _ => s

/-- Why no microword performs: no program, a micro-PC beyond it, or the step limit (R283). -/
def State.fetchEnds (s : State) (r : Ray) : Option Nat :=
  match s.program r with
  | none => some 0x1009
  | some (_, n) =>
    if n ≤ r.mpc then some 0x1002
    else if r.limit ≤ r.steps then some 0x1000
    else if (s.microword r).isNone then some 0x1009
    else none

/-- The program's entry or its image lies in a stack that is not up (R469). -/
def State.fetchLate (s : State) (r : Ray) : Bool :=
  let late := fun (x : Except (Nat × Reach) (List Byte)) => match x with | .error e => e.2.waits | .ok _ => false
  (s.stored? r).isNone && (late (s.tableEntry r) || late (s.image r))

/-- An image that cannot be read for a failed stack is an uncorrectable error (R467, R469). -/
def State.countImage (s : State) (r : Ray) : State :=
  let count := fun (s : State) (x : Except (Nat × Reach) (List Byte)) => match x with | .error (_, .no why) => s.countFailed why | _ => s
  if (s.stored? r).isSome then s else count (count s (s.tableEntry r)) (s.image r)

/-- The selected ray runs: it has not ended, and waits for nothing. -/
def Ray.runs (r : Ray) : Bool :=
  recStatus r.bytes == statusRunning && !r.queued && r.code.isNone && r.faulted.isNone && r.stuck == 0

/-- A micro-operation performed on the selected ray, one indivisible step (R259, R283 to R285). -/
def micro (i : Instr) (f : State → Ray → Stepped) (s : State) : Host.Outcome State Fault Refusal :=
  if !s.rayLive then .fault .noRay
  else if !s.ray.runs || s.fetchLate s.ray then .next s
  else
    match s.fetchEnds s.ray with
    | some sub => .next ((s.countImage s.ray).endRay sub)
    | none =>
      match if wordOk i then f s s.ray else .ends 0x1001 with
      | .go t r =>
        let r := r.count
        .next (if recStatus r.bytes = statusRunning then t.putRay r else t.leaveCruiser r)
      | .fault va why wr => .next (s.faultRay va why wr)
      | .ends sub => .next (s.endRay sub)
      | .waits => .next s

/-- The micro-PC goes on to the next word. -/
def Ray.onward (r : Ray) : Ray := r.setMpc (r.mpc + 1)

/-- What an access that is not reached comes to (R285, R319). -/
def stoppedAt (e : Nat × Reach) (wr : Bool) : Stepped :=
  match e.2 with
  | .no why => if why.cause = 0 then .waits else .fault e.1 why wr
  | .saved _ => .waits
  | _ => .fault e.1 permFinal wr

/-- Bytes that a micro-operation reads on the CR path. -/
def State.rayRead (s : State) (r : Ray) (va n : Nat) : Except Stepped (State × List Byte) :=
  let va := va % 2 ^ 64
  match s.engineRead r.grid r.ctx va n, s.keys r.grid r.ctx Need.load va n with
  | .ok bs, .ok ks =>
    match s.chargeRay r ks with
    | some s => .ok (s.engineMeets false ks, bs)
    | none => .error .waits
  | .error e, _ => .error (stoppedAt e false)
  | _, .error e => .error (stoppedAt e false)

/-- Bytes that it writes, all or none: addresses with their bytes. -/
def State.rayWrite (s : State) (r : Ray) (ws : List (Nat × List Byte)) : Except Stepped State :=
  match ws.mapM fun w => (s.keys r.grid r.ctx Need.store w.1 w.2.length).map fun ks => ks.zip w.2 with
  | .error e => .error (stoppedAt e true)
  | .ok kbs =>
    let all := kbs.flatMap id
    match s.chargeRay r (all.map (·.1)) with
    | some s => .ok (s.engineStore r.gs Path.cr.num (s.rayRegion r.gs) s.now (all.map (·.1)) (all.map (·.2)))
    | none => .error .waits

/-- A reading's result handed on. -/
def reading {α : Type} (x : Except Stepped α) (f : α → Stepped) : Stepped := match x with | .ok a => f a | .error e => e

/-! ## Nodes and primitives -/

/-- The node that NODE names, in the buffer (R267). -/
def State.bufferNode (s : State) (r : Ray) : Except Stepped (State × List Byte) :=
  let a := recNode r.bytes
  if refIsLeaf a then .error (.ends 0x1004) else s.rayRead r a (Layout.nsize r.layout)

/-- NLOAD (R267). -/
def execUNload (s : State) : Host.Outcome State Fault Refusal :=
  micro .uNload (fun s r => reading (s.bufferNode r) fun x => .go x.1 { r with node := some (recNode r.bytes, x.2) }.onward) s

/-- The child list of a node (R268). -/
def Ray.boxes (r : Ray) (node : List Byte) : List (Nat × Nat × Nat) :=
  (List.range (Layout.cc r.layout)).filterMap fun j =>
    match Layout.child r.layout node j, Layout.box r.layout node j with
    | some ref, some box =>
      (boxEntry (recOrigin r.bytes) r.invd (recTmin r.bytes) (fieldAt r.bytes 0x7C 4) box).map fun t => (t, j, ref)
    | _, _ => none

/-- BOXN (R267, R268). -/
def execUBoxn (s : State) : Host.Outcome State Fault Refusal :=
  micro .uBoxn (fun s r =>
    let here := match r.node with | some (a, bs) => if a = recNode r.bytes then some bs else none | none => none
    match here with
    | some bs => .go s { r with kids := r.boxes bs }.onward
    | none =>
      reading (s.bufferNode r) fun x =>
        .go x.1 { r with node := some (recNode r.bytes, x.2), kids := r.boxes x.2 }.onward) s

/-- A hit becomes the candidate when its t lies in range (R269). -/
def Ray.take (r : Ray) (prim : Nat) (hit : Option (Nat × Nat × Nat)) : Ray :=
  match hit with
  | none => r
  | some (t, u, v) =>
    let best := match r.cand with | some c => c.getD 0 0 | none => fieldAt r.bytes 0x7C 4
    let inst := if bitsAt r.bytes 0x28 29 29 = 1 then fieldAt r.bytes 0x90 4 else 0xFFFFFFFF
    if le32 (recTmin r.bytes) t && lt32 t best then { r with cand := some [t, prim, inst, u, v] } else r

/-- What is left of a leaf once n of its primitives have been tested. A primitive leaf of count 0 is NONE (R262): an exhausted one has its
reference, as R473's record has it, whatever index R269 would leave there. DEDUCED (log entry 31), unsafe for that word of a record. -/
def restOfLeaf (ref n : Nat) : Nat := if refCount ref = n then refNone else refLeaf false (refCount ref - n) (refFirst ref + n)

/-- Up to four primitives of the leaf tested (R269). -/
def State.testLeaf (s : State) (r : Ray) (kinds : List Nat) (size : Nat)
    (test : List Byte → Option (Nat × Nat × Nat)) : Stepped :=
  let ref := recNode r.bytes
  if !refIsPrim ref || !kinds.contains (Layout.pkind r.layout) then .ends 0x1004
  else if refCount ref = 0 then .go s r.onward
  else
    let n := min 4 (refCount ref)
    let addr := fun (i : Nat) =>
      Layout.primbase r.layout + (refFirst ref + i) % 2 ^ 32 * Layout.pstride r.layout
    let rec readAll : Nat → State → Except Stepped (State × List (List Byte))
      | 0, s => .ok (s, [])
      | k + 1, s =>
        match readAll k s with
        | .error e => .error e
        | .ok (s, ps) => (s.rayRead r (addr k) size).map fun x => (x.1, ps ++ [x.2])
    reading (readAll n s) fun x =>
      let r := (x.2.zip (List.range n)).foldl (fun (r : Ray) p => r.take ((refFirst ref + p.2) % 2 ^ 32) (test p.1)) r
      .go x.1 { r with bytes := setField r.bytes 0x30 8 (restOfLeaf ref n) }.onward

/-- TRIN (R269, R270). -/
def execUTrin (s : State) : Host.Outcome State Fault Refusal :=
  micro .uTrin (fun s r => s.testLeaf r [0] 36 (triangleHit (recOrigin r.bytes) (recDir r.bytes))) s

/-- SPHN (R269, R271). -/
def execUSphn (s : State) : Host.Outcome State Fault Refusal :=
  micro .uSphn (fun s r =>
    s.testLeaf r [1, 2] 16 fun p =>
      if Layout.pkind r.layout = 1 then sphereHit (recOrigin r.bytes) (recDir r.bytes) (recTmin r.bytes) p
      else splatHit (recOrigin r.bytes) (recDir r.bytes) p) s

/-! ## Child list and stack -/

def recSdepth (bs : List Byte) : Nat := bitsAt bs 0x2C 14 11
def recSpilld (bs : List Byte) : Nat := fieldAt bs 0x2E 2
def recSpillp (bs : List Byte) : Nat := fieldAt bs 0x70 8 % 2 ^ 57
def recStkbase (bs : List Byte) : Nat := bitsAt bs 0x78 16 0

/-- The stack's depth. -/
def recDepth (bs : List Byte) : Nat := recSpilld bs + recSdepth bs

/-- The entries of the short stack, oldest first, in canonical form. -/
def recStack (bs : List Byte) : List Nat := (List.range (recSdepth bs)).map fun i => unpackRef (fieldAt bs (0x38 + 7 * i) 7)

/-- The short stack written. -/
def setStack (bs : List Byte) (es : List Nat) : List Byte :=
  let bs := (es.zip (List.range es.length)).foldl (fun (bs : List Byte) e => setField bs (0x38 + 7 * e.2) 7 (packRef e.1)) bs
  setBitsAt bs 0x2C 14 11 es.length

/-- The spill pointer and depth written. -/
def setSpill (bs : List Byte) (p d : Nat) : List Byte := setField (setField bs 0x70 8 (p % 2 ^ 57)) 0x2E 2 d

/-- A spill pointer that serves (R274). -/
def spillOk (p : Nat) : Bool := p != 0 && p % 8 == 0

/-- A reference pushed: the record, and the spill to write, where one is needed; none where it is impossible (R274). -/
def pushRef (bs : List Byte) (ref : Nat) : Option (List Byte × List (Nat × List Byte)) :=
  let es := recStack bs
  if es.length < 8 then some (setStack bs (es ++ [ref]), [])
  else
    let p := recSpillp bs
    if !spillOk p || decide (65532 < recSpilld bs + 4) then none
    else some (setStack (setSpill bs (p + 32) (recSpilld bs + 4)) (es.drop 4 ++ [ref]), [(p, (es.take 4).flatMap (leBytes 8))])

/-- References pushed in order. -/
def pushRefs : List Byte → List Nat → Option (List Byte × List (Nat × List Byte))
  | bs, [] => some (bs, [])
  | bs, x :: rest =>
    match pushRef bs x with
    | none => none
    | some (bs, ws) => (pushRefs bs rest).map fun y => (y.1, ws ++ y.2)

/-- The child list's references pushed from the last to the first (R273). -/
def State.pushKids (s : State) (r : Ray) (kids : List (Nat × Nat × Nat)) (node : Nat) : Stepped :=
  match pushRefs r.bytes (kids.reverse.map (·.2.2)) with
  | none => .ends 0x1005
  | some (bs, ws) =>
    reading (s.rayWrite r ws) fun s => .go s { r with bytes := setField bs 0x30 8 node, kids := [] }.onward

/-- The top entry popped into NODE (R273, R274). -/
def State.popRef (s : State) (r : Ray) : Stepped :=
  let bs := r.bytes
  if recDepth bs ≤ recStkbase bs then .go s { r with bytes := setField bs 0x30 8 refNone }.onward
  else
    let pop := fun (s : State) (bs : List Byte) =>
      let es := recStack bs
      Stepped.go s { r with bytes := setField (setStack bs es.dropLast) 0x30 8 (es.getLast?.getD refNone) }.onward
    if recSdepth bs ≠ 0 then pop s bs
    else
      let n := min 4 (recSpilld bs)
      let p := recSpillp bs
      if !spillOk p then .ends 0x1005
      else
        let at' := (p + 2 ^ 57 - 8 * n) % 2 ^ 57
        reading (s.rayRead r at' (8 * n)) fun x =>
          pop x.1 (setStack (setSpill bs at' (recSpilld bs - n)) ((List.range n).map fun i => fieldAt x.2 (8 * i) 8))

/-- ORDN (R272). -/
def execUOrdn (s : State) : Host.Outcome State Fault Refusal :=
  micro .uOrdn (fun s r => .go s { r with kids := sortKids r.kids }.onward) s

/-- PUSHN (R273). -/
def execUPushn (s : State) : Host.Outcome State Fault Refusal :=
  micro .uPushn (fun s r => s.pushKids r r.kids (recNode r.bytes)) s

/-- POPN (R273). -/
def execUPopn (s : State) : Host.Outcome State Fault Refusal := micro .uPopn (fun s r => s.popRef r) s

/-- NEXTP (R273). -/
def execUNextp (s : State) : Host.Outcome State Fault Refusal :=
  micro .uNextp (fun s r => match r.kids with | [] => s.popRef r | k :: rest => s.pushKids r rest k.2.2) s

/-! ## Control -/

/-- JMP (R275). -/
def execUJmp (tgt : Nat) (s : State) : Host.Outcome State Fault Refusal := micro (.uJmp tgt) (fun s r => .go s (r.setMpc tgt)) s

/-- The conditions of JZ and JNZ (R260). -/
def Ray.holds (r : Ray) (c imm : Nat) : Bool :=
  match c with
  | 0 => !r.kids.isEmpty
  | 1 => r.cand.isSome
  | 2 => decide (recStkbase r.bytes < recDepth r.bytes)
  | 3 => refIsPrim (recNode r.bytes) && refCount (recNode r.bytes) != 0
  | 4 => fieldAt r.bytes 0x27 1 != 0
  | 5 => Nat.testBit (bitsAt r.bytes 0x28 23 16) imm
  | 6 => bitsAt r.bytes 0x28 29 29 == 1
  | _ => bitsAt r.bytes 0x28 30 30 == 1

/-- JZ (R260). -/
def execUJz (c tgt imm : Nat) (s : State) : Host.Outcome State Fault Refusal :=
  micro (.uJz c tgt imm) (fun s r => .go s (if r.holds c imm then r.onward else r.setMpc tgt)) s

/-- JNZ (R260). -/
def execUJnz (c tgt imm : Nat) (s : State) : Host.Outcome State Fault Refusal :=
  micro (.uJnz c tgt imm) (fun s r => .go s (if r.holds c imm then r.setMpc tgt else r.onward)) s

/-- LEAF (R275). -/
def execULeaf (tgt imm : Nat) (s : State) : Host.Outcome State Fault Refusal :=
  micro (.uLeaf tgt imm) (fun s r =>
    let a := recNode r.bytes
    .go s (if refIsInst a then r.setMpc imm else if refIsLeaf a then r.setMpc tgt else r.onward)) s

/-! ## Hits and hand-back -/

/-- The candidate committed (R276). -/
def Ray.commitHit (r : Ray) : Ray :=
  match r.cand with
  | none => r
  | some c =>
    let bs := ((List.range 5).foldl (fun (bs : List Byte) i => setField bs (0x7C + 4 * i) 4 (c.getD i 0)) r.bytes)
    { r with bytes := setBitsAt bs 0x28 30 30 1, cand := none }

/-- The best hit copied to the backup words (R276). -/
def Ray.keepHit (r : Ray) : Ray :=
  let h := recHit r.bytes
  let bs := (List.range 5).foldl (fun (bs : List Byte) i => setField bs (0xAC + 4 * i) 4 (h.getD i 0)) r.bytes
  let bs := setBitsAt bs 0x78 31 31 (bitsAt r.bytes 0x28 30 30)
  { r with bytes := setBitsAt bs 0x28 31 31 1 }

/-- HITC (R276). -/
def execUHitc (c : Nat) (s : State) : Host.Outcome State Fault Refusal :=
  micro (.uHitc c) (fun s r =>
    match c with
    | 0 => .go s r.commitHit.onward
    | 1 => .go s (if r.cand.isSome then r.keepHit.commitHit else r).onward
    | _ =>
      if bitsAt r.bytes 0x28 31 31 = 0 then .ends 0x1007
      else
        let bs := (List.range 5).foldl (fun (bs : List Byte) i =>
          setField bs (0x7C + 4 * i) 4 (fieldAt r.bytes (0xAC + 4 * i) 4)) r.bytes
        .go s { r with bytes := setBitsAt bs 0x28 30 30 (bitsAt r.bytes 0x78 31 31) }.onward) s

/-- ANYH (R277). -/
def execUAnyh (s : State) : Host.Outcome State Fault Refusal :=
  micro .uAnyh (fun s r =>
    let r := r.onward
    .go s { r with bytes := setStatus r.bytes statusAnyhit 0 }) s

/-! ## Instances -/

/-- A row of the instance matrix applied to a vector (R278). -/
def rowOf (m : List Byte) (i : Nat) (v : List Nat) : Nat :=
  let a := fun (j : Nat) => fieldAt m (16 * i + 4 * j) 4
  fma32 (a 2) (v.getD 2 0) (fma32 (a 1) (v.getD 1 0) (mul32 (a 0) (v.getD 0 0)))

/-- Three codes written from an offset. -/
def setVec (bs : List Byte) (off : Nat) (v : List Nat) : List Byte :=
  (List.range 3).foldl (fun (bs : List Byte) i => setField bs (off + 4 * i) 4 (v.getD i 0)) bs

/-- XFRM (R264, R278): the layout descriptor is read anew; one that breaks R264 by then ends the ray as at launch. DEDUCED (log entry
31), unsafe. -/
def execUXfrm (s : State) : Host.Outcome State Fault Refusal :=
  micro .uXfrm (fun s r =>
    let a := recNode r.bytes
    if !refIsInst a || bitsAt r.bytes 0x28 29 29 == 1 then .ends 0x1006
    else
      reading (s.rayRead r r.layoutVa 64) fun y =>
      let (s, r) := (y.1, { r with layout := y.2 })
      let base := Layout.instbase r.layout
      if !Layout.ok r.layout then .ends 0x1003
      else if base == 0 then .ends 0x1006
      else
      reading (s.rayRead r (base + 64 * refFirst a) 64) fun x =>
        let root := fieldAt x.2 0x30 8
        if root % 64 ≠ 0 ∨ 2 ^ 57 ≤ root then .ends 0x1006
        else
          let o := recOrigin r.bytes
          let d := recDir r.bytes
          let o' := (List.range 3).map fun i => add32 (rowOf x.2 i o) (fieldAt x.2 (16 * i + 12) 4)
          let d' := (List.range 3).map fun i => rowOf x.2 i d
          let bs := setVec (setVec (setVec (setVec r.bytes 0x94 o) 0xA0 d) 0 o') 0x10 d'
          let bs := setField bs 0x90 4 (fieldAt x.2 0x38 4)
          let bs := setBitsAt bs 0x78 16 0 (recDepth r.bytes)
          let bs := setField (setBitsAt bs 0x28 29 29 1) 0x30 8 root
          .go x.1 { r with bytes := bs, invd := inverse d' }.onward) s

/-- What XRET does inside an instance (R279). -/
def Ray.leaveInstance (r : Ray) : Ray :=
  let bs := r.bytes
  if bitsAt bs 0x28 29 29 = 0 then r
  else
    let base := min (recStkbase bs) (recDepth bs)
    let bs' := if recSpilld bs ≤ base then setBitsAt bs 0x2C 14 11 (base - recSpilld bs)
      else setBitsAt (setSpill bs (recSpillp bs + 2 ^ 57 - 8 * (recSpilld bs - base)) base) 0x2C 14 11 0
    let d := vecAt bs 0xA0
    let bs' := setVec (setVec bs' 0 (vecAt bs 0x94)) 0x10 d
    { r with bytes := setBitsAt (setBitsAt bs' 0x78 16 0 0) 0x28 29 29 0, invd := inverse d }

/-- XRET (R279). -/
def execUXret (s : State) : Host.Outcome State Fault Refusal := micro .uXret (fun s r => .go s r.leaveInstance.onward) s

/-! ## Flags, counter and ending -/

/-- SETF (R280). -/
def execUSetf (imm : Nat) (s : State) : Host.Outcome State Fault Refusal :=
  micro (.uSetf imm) (fun s r => .go s { r with bytes := setBitsAt r.bytes 0x28 (16 + imm) (16 + imm) 1 }.onward) s

/-- CLRF (R280). -/
def execUClrf (imm : Nat) (s : State) : Host.Outcome State Fault Refusal :=
  micro (.uClrf imm) (fun s r => .go s { r with bytes := setBitsAt r.bytes 0x28 (16 + imm) (16 + imm) 0 }.onward) s

/-- CNTR (R280). -/
def execUCntr (c imm : Nat) (s : State) : Host.Outcome State Fault Refusal :=
  micro (.uCntr c imm) (fun s r =>
    let n := fieldAt r.bytes 0x27 1
    let n' := match c with | 0 => imm | 1 => n - 1 | _ => min (n + 1) 255
    .go s { r with bytes := setField r.bytes 0x27 1 n' }.onward) s

/-- The miss result (R281). -/
def Ray.missed (r : Ray) : Ray :=
  let r := r.leaveInstance
  let h := [recTmax r.bytes, 0xFFFFFFFF, 0xFFFFFFFF, 0, 0]
  let bs := (List.range 5).foldl (fun (bs : List Byte) i => setField bs (0x7C + 4 * i) 4 (h.getD i 0)) r.bytes
  { r with bytes := setStatus (setBitsAt bs 0x28 30 30 0) statusDone 1 }

/-- MISS (R281). -/
def execUMiss (s : State) : Host.Outcome State Fault Refusal := micro .uMiss (fun s r => .go s r.missed) s

/-- DONE (R281). -/
def execUDone (s : State) : Host.Outcome State Fault Refusal :=
  micro .uDone (fun s r =>
    if bitsAt r.bytes 0x28 30 30 = 1 then
      let r := r.leaveInstance
      .go s { r with bytes := setStatus r.bytes statusDone 0 }
    else .go s r.missed) s

/-- FAULTX (R282). -/
def execUFaultx (imm : Nat) (s : State) : Host.Outcome State Fault Refusal := micro (.uFaultx imm) (fun s r => .go s (r.ended imm)) s

/-- ILLEGAL_MICROWORD (R259, R275, R283, R284): the ray ends, with nothing of the word performed. -/
def execEvIllegalMicroword (w : Nat) (s : State) : Host.Outcome State Fault Refusal :=
  micro (.evIllegalMicroword w) (fun _ _ => .ends 0x1001) s

end Sys2Proof.Machine
end

