-- ==== Sys2Proof/Machine/Rays.lean ====
section
/-!
DEFINITION. CRUZ, CRGET and CRLD, the device ray queue and the delivery of a ray's results (R245 to R248, R359, R362 to R366,
R475).
-/
namespace Sys2Proof.Machine

/-! ## Records of lanes -/

/-- The record a lane names cannot be read, or, for CRUZ, written (R225, R246). -/
def State.recordFault (s : State) (l va : Nat) (wr : Bool) : Option LaneFault :=
  match s.engineRead s.myGridKey s.me.ctx va 192 with
  | .error (a, .no why) => some (l, a, some why, 0)
  | .error (a, .saved team) => some (l, a, none, team)
  | .error (a, _) => some (l, a, some permFinal, 0)
  | .ok _ => if wr then s.laneFault Need.both ⟨l, va, 192, true⟩ else none

/-- Some lane's record lies in a stack that is not up (R469). -/
def stackLate (bad : List LaneFault) : Bool :=
  bad.any fun b => match b.2.2.1 with | some why => why.cause == 0 | none => false

/-- The bytes of a record that can be read. -/
def State.recordBytes (s : State) (va : Nat) : List Byte :=
  match s.engineRead s.myGridKey s.me.ctx va 192 with
  | .ok bs => bs
  | .error _ => []

/-- The keys of ranges that a group's lanes read, where they reach memory. -/
def State.reachedKeys (s : State) (xs : List (Nat × Nat)) : List Nat :=
  xs.flatMap fun x => (s.keys s.myGridKey s.me.ctx Need.load x.1 x.2).toOption.getD []

/-- A lane's record is misaligned (R246, R248). -/
def State.recordSkew (s : State) (a : Nat) : Option Nat :=
  ((lanesOf s.active).map fun l => (s.rdV64 a l).toNat).find? fun va => va % 64 != 0

/-! ## CRUZ -/

/-- The record of a ray lies in the bytes of a saved team (R364). -/
def State.recordSaved (s : State) (r : Ray) : Bool :=
  match s.resolve r.grid r.ctx none Need.load r.record 1 with | .saved _ => true | _ => false

/-- The entries at the heads of the queues that wait for a saved team: each counts against its budget (R364). That it does so on
every core is a DEDUCED reading (log entry 32), unsafe. -/
def State.headsSaved (s : State) : List Ray :=
  (((s.rays.filter (·.queued)).map (·.ctx)).eraseDups.filterMap fun ctx => s.rays.find? fun r => r.queued && r.ctx == ctx).filter
    s.recordSaved

/-- Free ray slots of a core's Cruiser under a budget (R364, R402, R403). -/
def State.raySlots (s : State) (core budget : Nat) : Nat :=
  let held := s.rays.filter fun r => r.held && r.core == core
  let most := let n := (s.budget budget).rays; if n = 0 then 256 else n
  min (256 - held.length) (most - ((held ++ s.headsSaved).filter fun r => r.budget == budget).length)

/-- A record as a launching CRUZ initialises it (R246, R359, R362). What HPRIM, HINST, HU and HV become is not said: free
values. DEDUCED (log entry 30), safe. -/
def launchRecord (bs : List Byte) (word owner root tick : Nat) : List Byte :=
  let bs := setField bs 0x20 4 (word % 256 * 2 ^ 24)
  let bs := setBitsAt bs 0x24 23 0 (word / 256)
  let flags := bitsAt bs 0x28 23 16
  let bs := setField bs 0x28 4 (owner % 65536 + flags * 2 ^ 16 + statusRunning * 2 ^ 24)
  let bs := setField bs 0x2C 4 0
  let bs := setField bs 0x30 8 root
  let bs := setField bs 0x78 4 0
  let bs := setField bs 0x7C 4 (recTmax bs)
  (List.range 4).foldl (fun (bs : List Byte) i => setField bs (0x80 + 4 * i) 4 (Config.outside (tick + i))) bs

/-- One lane's ray enters the Cruiser: launched, or resumed where its record says ANYHIT (R246, R263, R363). -/
def State.launchRay (s : State) (op lane dst va layoutVa word : Nat) (layout : List Byte) : State :=
  let bs := s.recordBytes va
  let gs := s.me.gs
  let root := (Layout.ref layout (Layout.root layout)).getD refNone
  let resumed := recStatus bs == statusAnyhit
  let bytes := if resumed then setBitsAt (setBitsAt bs 0x28 15 0 gs) 0x28 26 24 statusRunning
    else launchRecord bs word gs root s.tick
  let r : Ray :=
    { Ray.empty with
      id := s.nextOp, record := va, gs := gs, ctx := s.me.ctx, grid := s.myGridKey, core := coreOf gs, bytes := bytes
      layout := layout, budget := s.budgetOf gs, layoutVa := layoutVa }
  let r := r.fresh
  let s := { s with nextOp := s.nextOp + 1, tick := s.tick + 4, rays := s.rays ++ [r] }
  let s := s.modMe fun g => { g with rays := g.rays ++ [{ lane := lane, op := op, record := va, dest := dst }] }
  if !Layout.ok layout then s.leaveCruiser (r.ended 0x1003)
  else if resumed && decide (8 < bitsAt bytes 0x2C 14 11) then s.leaveCruiser (r.ended 0x100A)
  else
    match s.writeBack r with
    | .ok s => s
    | .error e => s.stick r 1 e.2 true

/-- The lanes that a CRUZ launches or resumes: the others find their record RUNNING or FAULTED, or named by a lower lane
(R246, R363). -/
def launchLanes (status : Nat → Nat) (va : Nat → Nat) : List Nat → List Nat → List Nat
  | _, [] => []
  | seen, l :: rest =>
    if status l = statusRunning ∨ status l = statusFaulted ∨ seen.contains (va l) then launchLanes status va seen rest
    else l :: launchLanes status va (va l :: seen) rest

/-- The lowest faulting address is a record's, which CRUZ writes, and not the layout descriptor's, which it reads (R225, R246,
R451). -/
def recordFirst (bad unread : List LaneFault) : Bool :=
  match lowestFault bad with
  | some f => !(unread.any fun x => x.2.1 == f.2.1)
  | none => true

/-- CRUZ (R246): it waits for a ray slot for each lane it launches. DEDUCED (log entry 30): unsafe for claims that it waits. -/
def execCruz (d h a la : Nat) (s : State) : Host.Outcome State Fault Refusal :=
  issue (.cruz d h a la) (fun s' =>
    let i : Instr := .cruz d h a la
    let hd := s'.handle h
    let ls := lanesOf s'.active
    let va := fun (l : Nat) => (s'.rdV64 a l).toNat
    if ls.isEmpty then .done s'.advance
    else
      match s'.recordSkew a with
      | some x => .trap (alignTrap s'.active x)
      | none =>
        let bad := ls.filterMap fun l => s'.recordFault l (va l) true
        let good := ls.filter fun l => !(faultLanes bad).getLsbD l
        let go := launchLanes (fun l => recStatus (s'.recordBytes (va l))) va [] good
        let refused := good.filter fun l => !go.contains l
        let layout := s'.engineRead s'.myGridKey s'.me.ctx hd.base 64
        let unread : List LaneFault :=
          match layout with
          | .ok _ => []
          | .error (x, .no why) => go.map fun l => (l, x, some why, 0)
          | .error (x, .saved team) => go.map fun l => (l, x, none, team)
          | .error (x, _) => go.map fun l => (l, x, some permFinal, 0)
        let bad := bad ++ unread
        let go := if unread.isEmpty then go else []
        let touched := (good.map fun l => (va l, 192)) ++ (if go.isEmpty then [] else [(hd.base, 64)])
        let paid := s'.acceptMem s'.me.gs (s'.reachedKeys touched)
        if stackLate bad || paid.isNone || decide (s'.raySlots (coreOf s'.me.gs) (s'.budgetOf s'.me.gs) < go.length) then .wait s
        else
          let s' := paid.getD s'
          let lost := faultLanes bad
          let cap := s'.capture i
          let u := s'.advance
          let op := s'.nextOp
          -- its rays are launched and charged: it is past withdrawing (R403, R447)
          let u := if go.isEmpty && refused.isEmpty then u
            else (u.openOp i { cap with act := cap.act &&& ~~~lost } [] []).modOp op fun o => { o with begun := true }
          let desc := match layout with | .ok x => x | .error _ => []
          let u := go.foldl (fun (u : State) l => u.launchRay op l d (va l) hd.base hd.word desc) u
          let u := refused.foldl (fun (u : State) l => u.wrVs (plainWords u.d (d + 5) l 4)) u
          let u := if go.isEmpty && !refused.isEmpty then u.closeOp op else u
          .done (u.parkFaults cap bad lost (recordFirst bad unread) .cr)) s

/-! ## CRGET -/

/-- The six words of a lane: best hit and code (R247). -/
def hitWords (planes d lane : Nat) (hit : List Nat) (code : Nat) : List (Nat × Word) :=
  (List.range 5).flatMap (fun i => plainWords planes (d + i) lane (BitVec.ofNat 32 (hit.getD i 0)))
    ++ plainWords planes (d + 5) lane (BitVec.ofNat 32 code)

/-- What CRGET gives a lane of a record (R248). -/
def getWords (planes d lane : Nat) (bs : List Byte) : List (Nat × Word) :=
  let st := recStatus bs
  if st = statusDone then hitWords planes d lane (recHit bs) (recCode bs)
  else if st = statusAnyhit then hitWords planes d lane (recHit bs) 2
  else plainWords planes (d + 5) lane (if st = statusRunning ∨ st = statusFaulted then 6 else 4)

/-- CRGET (R248). -/
def execCrget (d a la : Nat) (s : State) : Host.Outcome State Fault Refusal :=
  issue (.crget d a la) (fun s' =>
    let i : Instr := .crget d a la
    let ls := lanesOf s'.active
    let va := fun (l : Nat) => (s'.rdV64 a l).toNat
    if ls.isEmpty then .done s'.advance
    else
      match s'.recordSkew a with
      | some x => .trap (alignTrap s'.active x)
      | none =>
        let bad := ls.filterMap fun l => s'.recordFault l (va l) false
        let good := ls.filter fun l => !(faultLanes bad).getLsbD l
        let paid := s'.acceptMem s'.me.gs (s'.reachedKeys (good.map fun l => (va l, 192)))
        if stackLate bad || paid.isNone then .wait s
        else
          let s' := paid.getD s'
          let lost := faultLanes bad
          let cap := s'.capture i
          let words := good.flatMap fun l => getWords s'.d d l (s'.recordBytes (va l))
          let u := s'.advance
          let u := if good.isEmpty then u
            else ((u.openOp i { cap with act := cap.act &&& ~~~lost } [] []).wrVs words).closeOp s'.nextOp
          .done (u.parkFaults cap bad lost false .cr)) s

/-! ## CRLD -/

/-- The binding written into the grid's program table (R245), or the address that stops it. -/
def State.bindProgram (s : State) (gs ptab id base len : Nat) : Except (Nat × Reach) State :=
  let (grid, ctx) := s.placeOf gs
  s.engineWrite gs grid ctx (ptab + 16 * id) (leBytes 8 base ++ leBytes 4 (len % 4096 + 2 ^ 31) ++ leBytes 4 0)

/-- A CRLD operation performs: its numbers are the table, the id, the image and the length. A fault is one of its write of the
entry, also where the entry's VALID bit is looked at first (R225, R245). -/
def State.performBind (s : State) (id : Nat) : State :=
  match s.op? id with
  | none => s
  | some o =>
    if o.complete || o.suspended.isSome then s
    else
      let n := fun i => o.nums.getD i 0
      let (grid, ctx) := s.placeOf o.gs
      match s.engineRead grid ctx (n 0 + 16 * n 1) 16 with
      | .error e => s.stopOp o e true
      | .ok e =>
        if fieldAt e 8 4 / 2 ^ 31 = 1 then s.endOp o causeIllegal 0 0 (wordOf o.cap.instr)
        else
          match s.bindProgram o.gs (n 0) (n 1) (n 2) (n 3) with
          | .ok s => s.completeOp id
          | .error e => s.stopOp o e true

/-- CRLD operations that were suspended and are not any more go on (R225). -/
def State.resumeBinds (s : State) : State :=
  (s.ops.filter fun (o : Op) => !o.complete && (match o.cap.instr with | .crld .. => true | _ => false)).foldl
    (fun (s : State) o => s.performBind o.id) s

/-- CRLD (R245). -/
def execCrld (d h la : Nat) (s : State) : Host.Outcome State Fault Refusal :=
  issue (.crld d h la) (fun s' =>
    let hd := s'.handle h
    let ptab := s'.packetField 0x58 8
    let id := (s'.rdSd d).toNat
    let late := match s'.engineRead s'.myGridKey s'.me.ctx (ptab + 16 * id) 16 with | .error (_, r) => r.waits | .ok _ => false
    match s'.acceptMem s'.me.gs (s'.reachedKeys [(ptab + 16 * id, 16)]) with
    | none => .wait s
    | some t =>
      if late then .wait s
      else .done ((t.openEngine (.crld d h la) [ptab, id, hd.base, hd.word % 4096]).performBind t.nextOp)) s

/-! ## The device ray queue (R364, R475) -/

/-- A ray is taken up: its record and its layout descriptor are read (R263, R264, R359, R364). DEDUCED (log entry 32), unsafe
for the fields of such a record. -/
def State.takeUp (s : State) (r : Ray) : State :=
  let ks := fun va n => (s.keys r.grid r.ctx Need.load va n).toOption.getD []
  match s.chargeRay r (ks r.record 192 ++ ks r.layoutVa 64), s.engineRead r.grid r.ctx r.record 192 with
  | none, _ => s.stick { r with queued := false } 2 (.no ⟨0, false, 0⟩) false
  | _, .error e => s.stick { r with queued := false } 2 e.2 false
  | some s, .ok bs =>
    let r := { r with
      bytes := setBitsAt bs 0x28 26 24 statusRunning, queued := false, faulted := none, stuck := 0, code := none, only := false
      owner := none }
    let r := r.fresh
    if 8 < bitsAt bs 0x2C 14 11 then s.leaveCruiser (r.ended 0x100A)
    else
      match s.engineRead r.grid r.ctx r.layoutVa 64 with
      | .ok x =>
        let r := { r with layout := x }
        if Layout.ok x then s.putRay r else s.leaveCruiser (r.ended 0x1003)
      | .error (va, .no why) =>
        let mpc := bitsAt bs 0x2C 10 0
        let s := s.countFailed why
        if why.cause = 0 then s.putRay { r with stuck := 2 }
        else if why.service then s.leaveCruiser { r with bytes := setFaultInfo (setStatus r.bytes statusFaulted 0) why.cause 0 0 va mpc }
        else s.leaveCruiser { r with bytes := setFaultInfo (setStatus r.bytes statusDone 3) why.cause 0 0x1008 va mpc }
      | .error (_, .saved _) => s.putRay { r with stuck := 2 }
      | .error (va, _) =>
        s.leaveCruiser { r with bytes := setFaultInfo (setStatus r.bytes statusDone 3) 2 0 0x1008 va (bitsAt bs 0x2C 10 0) }

/-- RAY_TAKE_UP (R364): a ray whose take-up has to be retried goes first; then the oldest of the context's queue. -/
def State.takeNext (s : State) (core ctx : Nat) : State :=
  match s.rays.find? fun r => r.stuck == 2 && r.faulted.isNone && r.core == core && r.ctx == ctx with
  | some r => if s.recordSaved r then s else s.takeUp r
  | none =>
    match s.rays.find? fun r => r.queued && r.ctx == ctx with
    | none => s
    | some r =>
      if 256 ≤ core ∨ !s.dieReady (core / 64) ∨ s.raySlots core r.budget = 0 ∨ s.recordSaved r then s
      else s.takeUp { r with core := core }

/-- RAY_TAKE_UP (R364). -/
def execEvRayTakeUp (core ctx : Nat) (s : State) : Host.Outcome State Fault Refusal := happen (fun s => s.takeNext core ctx) s

/-- The answer to a ray's fault (R453, R475): without FAIL it enters the device ray queue, or retries its access. -/
def State.answerRay (s : State) (id cause : Nat) (fail : Bool) : State :=
  match s.ray? id with
  | none => s
  | some r =>
    if r.faulted.isNone then s
    else if fail then (if r.stuck ≠ 0 then s.failStuck { r with faulted := none } cause else s.failService r)
    else if r.stuck = 1 then s.leaveCruiser { r with faulted := none }
    else if r.stuck = 2 then s.takeUp { r with faulted := none }
    else { s with rays := (s.rays.filter fun (x : Ray) => x.id != id) ++ [{ r with queued := true, faulted := none }] }

/-! ## Delivery (R247, R365) -/

/-- An operation whose last ray has a code completes. -/
def State.settleCruz (s : State) (gs op : Nat) : State :=
  match s.anyGroup? gs with
  | some g => if g.rays.any fun p => p.op == op then s else s.completeOp op
  | none => s

/-- A group's pending entry takes its words. -/
def State.giveLane (s : State) (gs : Nat) (p : PendingRay) (words : Nat → List (Nat × Word)) : State :=
  (s.modGroup gs fun g => { (g.putVs (words g.tangents)) with rays := g.rays.filter (· != p) }).settleCruz gs p.op

/-- A ray's results go to the group in its owner's slot, where an entry names its record; otherwise they stay in the record. A
write-back that has to be retried is tried first (R247, R364 to R366, R475). -/
def State.deliverRay (s : State) (id : Nat) : State :=
  match s.ray? id with
  | none => s
  | some r =>
    if r.faulted.isSome || r.queued then s
    else if r.stuck = 1 then (if s.recordSaved r then s else s.leaveCruiser r)
    else
      match r.code with
      | none => s
      | some c =>
        let owner := if r.only then r.toOwner else recOwner r.bytes
        let s := { s with rays := s.rays.filter fun (x : Ray) => x.id != id }
        if r.mute then s
        else
        match (s.anyGroup? owner).bind fun g => g.rays.find? fun p => p.record == r.record && g.ctx == r.ctx with
        | none => s
        | some p =>
          s.giveLane owner p fun d =>
            if r.only then plainWords d (p.dest + 5) p.lane (BitVec.ofNat 32 c)
            else hitWords d p.dest p.lane (recHit r.bytes) c

/-- RAY_DELIVERY (R365). -/
def execEvRayDelivery (ray : Nat) (s : State) : Host.Outcome State Fault Refusal := happen (fun s => s.deliverRay ray) s

end Sys2Proof.Machine
end

