-- ==== Sys2Proof/Machine/Reorder.lean ====
section
/-!
DEFINITION. SORTK: lanes reordered over a set of groups (R249).
-/
namespace Sys2Proof.Machine

/-- A position of the set, with its key and whether its lane took part: no key sorts after every key. -/
structure Place where
  gs : Nat
  lane : Nat
  key : Option Nat
deriving DecidableEq, Repr

/-- One key goes strictly before another. -/
def keyBefore : Option Nat → Option Nat → Bool
  | some a, some b => decide (a < b)
  | some _, none => true
  | none, _ => false

/-- A position put after every one that does not sort behind it. -/
def insertPlace (x : Place) : List Place → List Place
  | [] => [x]
  | y :: ys => if keyBefore x.key y.key then x :: y :: ys else y :: insertPlace x ys

/-- The positions in stable order of their keys. -/
def sortPlaces (ps : List Place) : List Place := ps.foldl (fun acc x => insertPlace x acc) []

/-- The fields of the control word. -/
def sortBase (c : Nat) : Nat := c % 32
def sortCount (c : Nat) : Nat := c / 32 % 16
def sortBits (c : Nat) : Nat := c / 512 % 32

/-- The key of a word (R249). -/
def sortKey (kb w : Nat) : Nat := w / 2 ^ 24 * 2 ^ kb + w % 2 ^ kb

/-- The SORTK of a group that has not completed. -/
def State.sortOf (s : State) (gs : Nat) : Option Op :=
  s.ops.find? fun o => o.gs == gs && !o.complete && (match o.cap.instr with | .sortk .. => true | _ => false)

/-- The positions that an operation of a group contributes. -/
def sortPlacesOf (o : Op) : List Place :=
  match o.cap.instr with
  | .sortk _ _ a _ =>
    (List.range 32).map fun l =>
      { gs := o.gs, lane := l
        key := if o.cap.act.getLsbD l then
            some (sortKey (sortBits (o.nums.headD 0)) ((lookup o.cap.vec (vkey a 0 l)).getD 0).toNat)
          else none }
  | _ => []

/-- A group's lanes take what the lanes now placed there held: moved registers with their planes, p1 to p7, TFLAGS, EXEC. -/
def Group.takePlaces (g : Group) (bitmap : Nat) (src : Nat → Place) (from' : Nat → Group)
    (flagsAt : Place → BitVec 3) : Group :=
  let words := ((List.range 112).filter (Nat.testBit bitmap)).flatMap fun r =>
    (List.range (g.tangents + 1)).flatMap fun k => (List.range 32).map fun l =>
      (vkey r k l, (from' (src l).gs).vword r k (src l).lane)
  let preds := ssets 0 g.preds ((List.range 7).map fun i =>
    (i + 1, maskBy fun l => ((from' (src l).gs).pred (i + 1)).getLsbD (src l).lane))
  let flags := ssets 0 g.tflags ((List.range 32).map fun l => (l, flagsAt (src l)))
  let exec := maskBy fun l => (src l).key.isSome
  { (g.putVs words) with
    preds := preds, tflags := flags, sorting := none
    frags := g.frags.map fun (f : Frag) => if f.st == .running then { f with exec := exec } else f }

/-- The reordering, once every group of the set has issued (R249): it happens with no fragment selected. -/
def State.reorder (s : State) (ops : List Op) : State :=
  let places := ops.flatMap sortPlacesOf
  let sorted := sortPlaces places
  let bitmap := match ops with | o :: _ => o.nums.getD 1 0 | [] => 0
  let old := fun gs => (s.anyGroup? gs).getD Group.empty
  let src := fun (gs l : Nat) =>
    match places.findIdx? fun p => p.gs == gs && p.lane == l with
    | some i => sorted.getD i { gs := gs, lane := l, key := none }
    | none => { gs := gs, lane := l, key := none }
  let s := { s with
    groups := s.groups.map fun g =>
      if ops.any fun o => o.gs == g.gs then g.takePlaces bitmap (src g.gs) old (fun p => s.flagsOf (old p.gs) p.lane) else g }
  -- the flags that stores in progress are to set have moved with the lanes
  ops.foldl (fun (s : State) o => (s.flagsGiven o.gs (BitVec.allOnes 32)).closeOp o.id) s

/-- The sets of two control words have a group in common. -/
def sortsMeet (c c' : Nat) : Bool :=
  decide (sortBase c < sortBase c' + sortCount c') && decide (sortBase c' < sortBase c + sortCount c)

/-- SORTK (R249): the group's lanes stand ready, and the last group of the set to issue reorders them all. Its
control is held to that of the first arrival whose set meets its own. DEDUCED (log entry
29), unsafe in its corners. -/
def execSortk (d h a la : Nat) (s : State) : Host.Outcome State Fault Refusal :=
  issue (.sortk d h a la) (fun s =>
    match s.myTeam with
    | none => .trap (Trap.plain causeIllegal 0 s.active)
    | some t =>
      let c := (s.rdSd d).toNat
      let bitmap := (s.rdS64 (h + 2)).toNat * 2 ^ 64 + (s.rdS64 h).toNat
      let set := (List.range (sortCount c)).map fun i => t.slots.getD (sortBase c + i) 0
      let first := s.ops.find? fun o =>
        t.slots.contains o.gs && !o.complete && (match o.cap.instr with | .sortk .. => true | _ => false)
        && sortsMeet c (o.nums.headD 0)
      if (match first with | some o => o.nums != [c, bitmap] | none => false) then
        .trap (Trap.plain causeIllegal 0 s.fr.exec)
      else
        let gs := s.me.gs
        let frag := s.fr.id
        let u := (s.openEngine (.sortk d h a la) [c, bitmap]).modMe fun g => { g with sorting := some s.nextOp }
        let ops := set.filterMap u.sortOf
        .done (if ops.length = set.length then (u.park.reorder ops).select gs frag else u)) s

end Sys2Proof.Machine
end

