-- ==== Sys2Proof/Machine/Packet.lean ====
section
/-!
DEFINITION. Launch packets: their fields, the checks that the dispatcher and the graph scheduler make of one, and the routing
table (R35, R36, R388, R389, R400, R407, R426 to R429, R469).
-/
namespace Sys2Proof.Machine

/-- A launch packet's 128 bytes (R388). -/
abbrev Packet := List Byte

/-- Bits hi:lo of the 32-bit word at an offset. -/
def Packet.bits (p : Packet) (off hi lo : Nat) : Nat := fieldAt p off 4 / 2 ^ lo % 2 ^ (hi + 1 - lo)

def Packet.entry (p : Packet) : Nat := fieldAt p 0 8
def Packet.args (p : Packet) : Nat := fieldAt p 8 8
def Packet.lanes (p : Packet) : Nat := fieldAt p 0x10 4
def Packet.gridId (p : Packet) : Nat := fieldAt p 0x14 4
def Packet.roles (p : Packet) : Nat := p.bits 0x18 25 24 + 1
def Packet.count (p : Packet) (r : Nat) : Nat := p.bits 0x18 23 0 / 2 ^ (6 * r) % 64
def Packet.alloc (p : Packet) (r : Nat) : Nat := fieldAt p (0x1C + r) 1
def Packet.sram (p : Packet) : Nat := fieldAt p 0x20 4
def Packet.serial (p : Packet) : Bool := p.bits 0x24 22 22 == 1
def Packet.tiles (p : Packet) : Nat := p.bits 0x24 21 17
def Packet.pclass (p : Packet) : Nat := p.bits 0x24 14 13
def Packet.cluster (p : Packet) : Bool := p.bits 0x24 12 12 == 1
def Packet.sy (p : Packet) : Option Nat := if p.bits 0x24 11 11 = 1 then some (p.bits 0x24 10 8) else none
def Packet.sx (p : Packet) : Option Nat := if p.bits 0x24 7 7 = 1 then some (p.bits 0x24 6 4) else none
def Packet.d (p : Packet) : Nat := p.bits 0x24 3 0
def Packet.width (p : Packet) : Nat := fieldAt p 0x3E 1
def Packet.height (p : Packet) : Nat := fieldAt p 0x3F 1
def Packet.route (p : Packet) : Nat := fieldAt p 0x40 8
def Packet.record (p : Packet) : Nat := fieldAt p 0x48 8
def Packet.vector (p : Packet) : Nat := p.bits 0x50 15 0
def Packet.intr (p : Packet) : Bool := p.bits 0x50 16 16 == 1

/-- The groups of a team (R305). -/
def Packet.groups (p : Packet) : Nat := ((List.range p.roles).map p.count).foldl (· + ·) 0

/-- The role of a group of the team (R305). -/
def Packet.roleOf (p : Packet) (gid : Nat) : Nat :=
  ((List.range p.roles).find? fun r => decide (gid < ((List.range (r + 1)).map p.count).foldl (· + ·) 0)).getD 0

/-- NT (R388). -/
def Packet.teams (p : Packet) : Nat := (p.lanes + 32 * p.groups - 1) / (32 * p.groups)

/-- TBYTES (R317). -/
def Packet.tbytes (p : Packet) : Nat := (p.sram + 4095) / 4096 * 4096

/-- The register-file charge of a team (R306). -/
def Packet.charge (p : Packet) : Nat :=
  ((List.range p.roles).map fun r => p.count r * Machine.charge p.d (p.alloc r)).foldl (· + ·) 0

/-- Rounding up to 4 KiB. -/
def pages (n : Nat) : Nat := (n + 4095) / 4096 * 4096

/-- A team's save need (R407). -/
def Packet.saveNeed (p : Packet) : Nat :=
  let regs := ((List.range p.roles).map fun r => p.count r * pages (Machine.charge p.d (p.alloc r))).foldl (· + ·) 0
  let blocks := regs + p.tiles * 69632 + 2 * p.tbytes
  16384 + blocks + pages (16 * ((blocks + 4095) / 4096))

/-- The lanes of a group that the grid covers (R34, R388). -/
def Packet.covered (p : Packet) (team gid : Nat) : Mask :=
  maskBy fun l => decide ((team * p.groups + gid) * 32 + l < p.lanes)

/-- Reserved fields (reason 1). -/
def Packet.reserved (p : Packet) : Bool :=
  p.bits 0x18 31 26 != 0 || p.bits 0x24 31 23 != 0 || p.bits 0x50 31 17 != 0 || fieldAt p 0x54 4 != 0
  || (p.drop 0x60).any (· != 0)

/-- Misaligned addresses (reason 2). -/
def Packet.misaligned (p : Packet) : Bool :=
  p.entry % 4 != 0 || fieldAt p 0x30 8 % 64 != 0 || fieldAt p 0x28 8 % 4 != 0 || p.record % 16 != 0
  || fieldAt p 0x58 8 % 64 != 0

/-- Roles, allocations and the packet's other counts are as the packet map and R35 allow (reason 3). That GRIDL 0 and an LMCNT
past its range fall here, and that a used role's allocation is not 0 (R388, R100), is the model's choice. DESIGN CHOICE (log
entry 34), unsafe. -/
def Packet.rolesOk (p : Packet) : Bool :=
  decide (1 ≤ p.groups) && decide (p.groups ≤ 32) && decide (1 ≤ p.lanes) && decide (fieldAt p 0x38 4 ≤ 262144)
  && (List.range 4).all fun r =>
    if r < p.roles then
      p.alloc r % 4 == 0 && decide (4 ≤ p.alloc r) && decide (p.alloc r ≤ 112) && decide (Machine.charge p.d (p.alloc r) ≤ 49152)
    else p.count r == 0 && p.alloc r == 0

/-- D is allowed, and the declared axes name planes below it (reason 5). -/
def Packet.tangentsOk (p : Packet) : Bool :=
  [0, 1, 2, 3, 4, 6, 8].contains p.d
  && (match p.sx with | some k => decide (k < p.d) | none => true)
  && (match p.sy with | some k => decide (k < p.d) | none => true)

/-- The routing table as read: every entry's device, die and ports, and the dies of this device with x and y (R427, R429). -/
structure Routing where
  route : List (Nat × Nat × Nat)
  dies : List (Nat × Nat × Nat)
deriving DecidableEq, Repr

/-- An entry of the table: device, die, ports, and whether its reserved fields are 0. -/
def routeEntry (bs : List Byte) (e : Nat) : Nat × Nat × Nat × Bool :=
  let w0 := fieldAt bs (16 + 16 * e) 4
  let w1 := fieldAt bs (20 + 16 * e) 4
  (w0 % 256, w0 / 256 % 4, w1 % 65536,
    decide (w0 < 1024) && decide (w1 < 65536) && fieldAt bs (24 + 16 * e) 8 == 0)

/-- An entry that the check accepts (R428, R469). -/
def State.entryOk (s : State) (e : Nat × Nat × Nat × Bool) : Bool :=
  e.2.2.2 && decide (e.1 ≤ 143)
  && (if e.1 = s.mesh.toNat then s.dieReady e.2.1
      else e.2.2.1 != 0 && (List.range 16).all fun p => !Nat.testBit e.2.2.1 p || s.portReady p)

/-- The bytes of a packet's routing table: none where its rectangle breaks the limits (R427, R428). -/
def Packet.routeBytes (p : Packet) : Nat :=
  let n := p.width * p.height
  if n = 0 || decide (576 < n) || decide (256 < fieldAt p 0x3C 1 + p.width) || decide (256 < fieldAt p 0x3D 1 + p.height) then 0
  else 16 + 16 * n

/-- The rectangle and its routing table, read while the launch has no routes yet; none where the check fails (reason 9). -/
def State.routing (s : State) (ctx : Nat) (p : Packet) : Option Routing :=
  let n := p.width * p.height
  if !s.meshWritten || p.routeBytes = 0 then none
  else
    match s.deviceRead s.nextGrid ctx p.route p.routeBytes with
    | none => none
    | some bs =>
      let es := (List.range n).map (routeEntry bs)
      let names := es.map fun e => (e.1, e.2.1)
      if fieldAt bs 0 4 = n ∧ fieldAt bs 4 8 = 0 ∧ fieldAt bs 12 4 = 0 ∧ es.all s.entryOk ∧ names.eraseDups.length = n
          ∧ names.any fun d => d.1 == s.mesh.toNat then
        some {
          route := es.map fun e => (e.1, e.2.1, e.2.2.1)
          dies := (List.range n).filterMap fun i =>
            let e := routeEntry bs i
            if e.1 = s.mesh.toNat then some (e.2.1, i % p.width, i / p.width) else none }
      else none

/-- An empty core holds one team (reason 10). -/
def Packet.fitsEmpty (p : Packet) : Bool :=
  decide (p.groups ≤ 256) && decide (p.charge ≤ 2 ^ 21) && decide (p.tbytes + 4096 ≤ 2 ^ 23) && decide (p.tiles ≤ 16)

/-- The fields of a context record that a launch needs: EN, DMG and SAUNIT (R405). -/
def State.ctxEnabled (s : State) (ctx : Nat) : Bool := s.ctxField ctx 0x28 4 % 2 == 1
def State.ctxDamaged (s : State) (ctx : Nat) : Bool := s.ctxField ctx 0x28 4 / 2 % 2 == 1
def State.saUnit (s : State) (ctx : Nat) : Nat := s.ctxField ctx 0x18 4

/-- The check of a packet has to wait: the context record or the routing table lies in a stack that is not up (R469). -/
def State.checkWaits (s : State) (ctx : Nat) (p : Packet) : Bool :=
  (s.recordReach (s.ctxPa ctx) 64).waits || s.deviceWaits s.nextGrid ctx p.route p.routeBytes

/-- A check has found its routing table unreadable: where that was for a failed stack, an uncorrectable error is reported (R467, R469). -/
def State.countRoute (s : State) (ctx reason : Nat) (p : Packet) : State :=
  if reason = 9 then s.countFailedVa s.nextGrid ctx p.route p.routeBytes else s

/-- The first failing reason of a packet, 0 where it passes (R389, R407). -/
def State.packetReason (s : State) (ctx qclass : Nat) (p : Packet) : Nat :=
  if p.reserved then 1
  else if p.misaligned then 2
  else if !p.rolesOk then 3
  else if 8384512 < p.sram then 4
  else if !p.tangentsOk then 5
  else if qclass < p.pclass then 6
  else if 16 < p.tiles then 7
  else if p.cluster && p.teams % 4 != 0 then 8
  else if (s.routing ctx p).isNone then 9
  else if !p.fitsEmpty then 10
  else if !s.ctxEnabled ctx || decide (s.saUnit ctx < p.saveNeed) then 11
  else 0

end Sys2Proof.Machine
end

