-- ==== Sys2Proof/Machine/Landing.lean ====
section
/-!
DEFINITION. Landings: the graph scheduler's state of one, allocation, commits, batches and time-outs, and the return of a
batch's records (R250 to R252, R397 to R401, R437).
-/
namespace Sys2Proof.Machine

/-- A landing the graph scheduler holds, by context and descriptor address (R398). -/
def State.landing? (s : State) (ctx key : Nat) : Option Landing := s.landings.find? fun l => l.key == key && l.ctx == ctx

/-- A function applied to a landing. -/
def State.modLanding (s : State) (ctx key : Nat) (f : Landing → Landing) : State :=
  { s with landings := s.landings.map fun (l : Landing) => if l.key == key && l.ctx == ctx then f l else l }

/-- The address of a record (R397). -/
def Landing.address (l : Landing) (i : Nat) : Nat := (l.recbase + i * l.rsize) % 2 ^ 64

/-- The state taken at the first use of a descriptor (R397, R398). -/
def Landing.ofDescriptor (key ctx : Nat) (d : List Byte) : Landing :=
  let batch := fieldAt d 0xC 4
  let timeout := fieldAt d 0x10 4
  { key := key, ctx := ctx, recbase := fieldAt d 0 8, cap := fieldAt d 0xA 2, rsize := fieldAt d 8 2
    batch := if batch = 0 then 8 else batch
    timeout := if timeout = 0 then 10000 else timeout
    stall := fieldAt d 0x14 4, consumer := fieldAt d 0x18 8
    free := List.range (fieldAt d 0xA 2), allocated := [], pend := [], waiting := [], batches := 0, lastBatch := 0
    checked := none, grids := [], formed := [], makers := [] }

/-- What stands in the way of using a landing. -/
inductive NoLanding where
  /-- The descriptor cannot be read (R225). -/
  | unread (at' : Nat × Reach)
  /-- It breaks R397. -/
  | breaks
deriving DecidableEq, Repr

/-- A group's operation uses a landing: at the first use the descriptor is read, once its access is accepted, and held, and the grid has
used it (R398, R403). -/
def State.useLanding (s : State) (gs base : Nat) : Except NoLanding State :=
  let (grid, ctx) := s.placeOf gs
  let used := fun (s : State) => s.modGrid grid fun g =>
    { g with landings := if g.landings.contains base then g.landings else base :: g.landings }
  match s.landing? ctx base with
  | some _ => .ok (used s)
  | none =>
    match s.engineRead grid ctx base 64 with
    | .error e => .error (.unread e)
    | .ok d =>
      match s.acceptMem gs ((s.keys grid ctx Need.load base 64).toOption.getD []) with
      | none => .error (.unread (base, .no ⟨0, false, 0⟩))
      | some s =>
        if descriptorBreaks d then .error .breaks
        else .ok (used { s with landings := s.landings ++ [Landing.ofDescriptor base ctx d] })

/-- The descriptor's read has to wait (R403, R469). -/
def NoLanding.waits : NoLanding → Bool
  | .unread e => e.2.waits
  | .breaks => false

/-- The operation cannot use its landing: it is suspended, or stops; with HANDLE where the descriptor breaks R397 (R225, R397). -/
def State.stopLanding (s : State) (o : Op) : NoLanding → State
  | .unread e => s.stopOp o e false
  | .breaks => s.endOp o causeHandle 3 0 (wordOf o.cap.instr)

/-! ## Allocation -/

/-- The lowest number of a list. -/
def lowest (ns : List Nat) : Option Nat :=
  ns.foldl (fun m n => match m with | none => some n | some k => some (min k n)) none

/-- A RALC's operation and destination: d and the predicate of field a. -/
def Op.allocates (o : Op) : Option (Nat × Nat) := match o.cap.instr with | .ralc d _ a _ => some (d, a) | _ => none

/-- A lane's answer: the address and the predicate (R250). -/
def State.answerLane (s : State) (o : Op) (lane addr : Nat) (null : Bool) : State :=
  match o.allocates with
  | none => s
  | some (d, a) =>
    s.modGroup o.gs fun g =>
      (g.putVs (plainWords g.tangents d lane (BitVec.ofNat 32 addr)
        ++ plainWords g.tangents (d + 1) lane (BitVec.ofNat 32 (addr / 2 ^ 32)))).putP a (laneBit lane)
        (if null then laneBit lane else 0)

/-- The lanes of an operation take the lowest free records, in ascending lane order, while there are any (R250, R399). -/
def State.serveLanes (s : State) (o : Op) (ctx base team : Nat) : List Nat → State × List Nat
  | [] => (s, [])
  | lane :: rest =>
    match s.landing? ctx base with
    | none => (s, lane :: rest)
    | some l =>
      match lowest l.free with
      | none => (s, lane :: rest)
      | some r =>
        let s := s.modLanding ctx base fun l =>
          { l with free := l.free.filter (· != r), allocated := l.allocated ++ [(r, team)] }
        (s.answerLane o lane (l.address r) false).serveLanes o ctx base team rest

/-- The requests that wait at a landing are served, first in, first out; one that is not served whole keeps the later ones
waiting (R399). -/
def State.serveQueue (s : State) (ctx base : Nat) : List Nat → State
  | [] => s
  | id :: rest =>
    let drop := fun (s : State) => s.modLanding ctx base fun l => { l with waiting := l.waiting.filter (· != id) }
    match s.op? id with
    | none => (drop s).serveQueue ctx base rest
    | some o =>
      if o.complete || o.allocates.isNone then (drop s).serveQueue ctx base rest
      else
        let team := ((s.anyGroup? o.gs).getD Group.empty).team
        let r := s.serveLanes o ctx base team (o.nums.drop 1)
        let served := r.1.modOp id fun x =>
          { x with nums := base :: r.2, begun := x.begun || r.2.length != (o.nums.drop 1).length }
        if r.2.isEmpty then (drop (served.completeOp id)).serveQueue ctx base rest else served

/-- The operation reaches the graph scheduler if it has not, and the queue is served as far as it goes. -/
def State.reachScheduler (s : State) (o : Op) (base : Nat) : State :=
  let (_, ctx) := s.placeOf o.gs
  let s := s.modLanding ctx base fun l =>
    { l with waiting := if l.waiting.contains o.id then l.waiting else l.waiting ++ [o.id] }
  match s.landing? ctx base with
  | some l => s.serveQueue ctx base l.waiting
  | none => s

/-- RALC (R250): the request is on its way to the graph scheduler. -/
def execRalc (d h a la : Nat) (s : State) : Host.Outcome State Fault Refusal :=
  issue (.ralc d h a la) (fun s =>
    let ls := lanesOf s.active
    if ls.isEmpty then .done s.advance
    else .done (s.openEngine (.ralc d h a la) ((s.handle h).base :: ls))) s

/-! ## Commits and batches -/

/-- A landing's records of a batch that is discarded return (R400). -/
def Landing.discard (l : Landing) (rs : List Commit) : Landing := { l with free := l.free ++ rs.map (·.record) }

/-- The reason by which a consumer packet fails, and its grid where it passes (R400). A packet that cannot be read fails by a
reason that the spec does not name: a free value. DESIGN CHOICE (log entry 34), safe. -/
def State.checkConsumer (s : State) (l : Landing) (g : Grid) : Nat × Option Grid :=
  match s.deviceRead g.key l.ctx l.consumer 128 with
  | none => (1 + Config.outside s.tick % 11, none)
  | some p =>
    match s.packetReason l.ctx g.qclass p, s.routing l.ctx p with
    | 0, some r =>
      (0, some {
        key := s.nextGrid, queue := g.queue, packet := p, ctx := l.ctx, budget := g.budget, qclass := g.qclass
        route := r.route, dies := r.dies, nextTeam := 0, teams := 0, lastCore := 255, kills := 0, status := 0, reason := 0
        landings := [], consumerOf := some l.key, l1Mark := 0, accepted := true, finished := false })
    | n, _ => (n, none)

/-- The check of a landing's consumer packet, which its first batch needs, has to wait for a stack (R469). -/
def State.consumerWaits (s : State) (l : Landing) (g : Grid) : Bool :=
  l.checked.isNone
  && (s.deviceWaits g.key l.ctx l.consumer 128
      || match s.deviceRead g.key l.ctx l.consumer 128 with | some p => s.checkWaits l.ctx p | none => false)

/-- The oldest n pending records form a batch; the launch and the budget are those of the commit which formed it (R399, R400, R402).
DEDUCED (log entry 33), unsafe in its corners. -/
def State.formBatch (s : State) (ctx base n : Nat) : State :=
  match s.landing? ctx base with
  | none => s
  | some l =>
    let rs := l.pend.take n
    match (rs.getLast?.bind fun r => (s.grid? r.grid).map fun g => (r, g)) with
    | none => s
    | some (r, g) =>
      if s.consumerWaits l g then s
      else
      let (reason, made) := match l.checked with
        | some r => (r, none)
        | none => s.checkConsumer l g
      let s := match made with
        | some c => { s with grids := s.grids ++ [c], nextGrid := s.nextGrid + 1 }
        | none => if l.checked.isNone then s.draw else s
      s.modLanding ctx base fun l =>
        let l := { l with pend := l.pend.drop n, lastBatch := s.now, checked := some reason }
        if reason = 0 then
          { l with batches := l.batches + 1, 
                   formed := l.formed ++ [{ index := l.batches, budget := r.budget, launch := r.grid, records := rs }] }
        else l.discard rs

/-- Batches form while the pending list holds enough records. -/
def State.formBatches (s : State) (ctx base : Nat) : Nat → State
  | 0 => s
  | n + 1 =>
    match s.landing? ctx base with
    | some l => if l.batch ≤ l.pend.length then (s.formBatch ctx base l.batch).formBatches ctx base n else s
    | none => s

/-- Batches that had to wait for a stack form (R399, R469). -/
def State.formLate (s : State) : State :=
  s.landings.foldl (fun (s : State) l => s.formBatches l.ctx l.key l.pend.length) s

/-- The records that addresses name: allocated ones of the landing, each once (R251); null addresses are skipped. -/
def Landing.named (l : Landing) : List Nat → List Nat → Option (List Nat)
  | _, [] => some []
  | seen, a :: rest =>
    if a = 0 then l.named seen rest
    else
      match l.allocated.find? fun r => l.address r.1 == a && !seen.contains r.1 with
      | some r => (l.named (r.1 :: seen) rest).map (r.1 :: ·)
      | none => none

/-- The commit of the lanes' records, or nothing where an address names none (R251); with the bound of the RCMT, its region + 1, and what
came before it (R337). -/
def State.commitRecords (s : State) (gs base : Nat) (addrs : List Nat) (bound : Nat) (before : Before) : Option State :=
  let (grid, ctx) := s.placeOf gs
  match s.landing? ctx base, s.anyGroup? gs with
  | some l, some g =>
    match l.named [] addrs with
    | none => none
    | some rs =>
      let (launch, budget) := match s.team? g.team with | some t => (t.launch, t.budget) | none => (grid, 0)
      let s := s.modLanding ctx base fun l =>
        { l with
          allocated := l.allocated.filter fun r => !rs.contains r.1
          pend := l.pend ++ rs.map fun r => 
            { record := r, time := s.now, gs := g.gs, bound := bound, grid := launch, budget := budget, before := before }
          grids := if rs.isEmpty || l.grids.contains launch then l.grids else launch :: l.grids
          makers := if rs.isEmpty then l.makers else insertKey l.makers gs g.issued }
      some (s.formBatches ctx base (l.pend.length + rs.length))
  | _, _ => none

/-- Every address of a list names a record that can be committed, or is null (R251). -/
def State.namesAll (s : State) (gs base : Nat) (addrs : List Nat) : Bool :=
  match s.landing? (s.placeOf gs).2 base with
  | some l => (l.named [] addrs).isSome
  | none => true

/-- The lanes whose record does not translate (R225): the whole of it, or, while the landing is not held, the 16 bytes that it has
at least. DEDUCED (log entry 25), unsafe for the kind of access and for the state after it. -/
def State.recordsLost (s : State) (base a : Nat) : List LaneFault :=
  let n := match s.landing? s.me.ctx base with | some l => l.rsize | none => 16
  (lanesOf s.active).filterMap fun l =>
    let va := (s.rdV64 a l).toNat
    if va = 0 then none else s.laneFault Need.load ⟨l, va, n, false⟩

/-- RCMT (R251): the release first, which ends the region; then the commit, checked whole. A lane whose record does not translate parks
(R225). An address that is no record traps with the landing in use (R398). -/
def execRcmt (h a la : Nat) (s : State) : Host.Outcome State Fault Refusal :=
  issue (.rcmt h a la) (fun s' =>
    let gs := s'.me.gs
    let base := (s'.handle h).base
    let ls := lanesOf s'.active
    if ls.isEmpty then .done s'.advance
    else if !s'.released gs 4 s'.nextOp then .wait (s.fence 255 (s'.windowStart gs 4 s'.nextOp))
    else
      let t := s'.fenced
      let i : Instr := .rcmt h a la
      let rec' := fun l => (t.rdV64 a l).toNat
      let r := t.useLanding gs base
      let u := match r with | .ok u => u | .error _ => t
      if (match r with | .error e => e.waits | .ok _ => false) then .wait s
      else if !u.namesAll gs base (ls.map rec') then .trapIn u (Trap.plain causeIllegal 4 t.active)
      else
        let bad := u.recordsLost base a
        let lost := faultLanes bad
        let addrs := (ls.filter fun l => !lost.getLsbD l).map rec'
        let cap := u.capture i
        let opened := fun (u : State) =>
          (if addrs.isEmpty then u.advance else u.advance.openOp i { cap with act := cap.act &&& ~~~lost } [] (base :: addrs)).modMe
            fun g => g.releaseRegion 4
        let v :=
          match r with
          | .error e =>
            let w := opened u
            match w.op? t.nextOp with
            | some o => w.stopLanding o e
            | none => w
          | .ok _ =>
            let w := opened ((u.commitRecords gs base addrs (u.me.race.rg + 1) u.me.past).getD u)
            if addrs.isEmpty then w else w.closeOp t.nextOp
        .done (v.parkFaults cap bad lost false .ls)) s

/-- A suspended RCMT whose descriptor has become readable commits (R225). -/
def State.commitLate (s : State) (o : Op) : State :=
  match s.commitRecords o.gs (o.nums.headD 0) (o.nums.drop 1) (o.region + 1) (s.opPast o) with
  | some t => t.closeOp o.id
  | none => s.endOp o causeIllegal 4 0 (wordOf o.cap.instr)

/-! ## Consumer teams -/

/-- The registers that RGET gives a lane: the address of its record or 0, and the count (R252). -/
def recordWords (d dst lane : Nat) (addrs : List Nat) : List (Nat × Word) :=
  let a := addrs.getD lane 0
  plainWords d dst lane (BitVec.ofNat 32 a) ++ plainWords d (dst + 1) lane (BitVec.ofNat 32 (a / 2 ^ 32))
    ++ plainWords d (dst + 2) lane (BitVec.ofNat 32 addrs.length)

/-- RGET (R252); where it is not legal it has used its landing by then (R398). -/
def execRget (d h la : Nat) (s : State) : Host.Outcome State Fault Refusal :=
  issue (.rget d h la) (fun s =>
    let base := (s.handle h).base
    let illegal : Ran := .trapIn ((s.useLanding s.me.gs base).toOption.getD s) (Trap.plain causeIllegal 0 s.active)
    if s.active = 0 then .done s.advance
    else
    match s.myTeam.bind (·.batch), s.landing? s.me.ctx base with
    | some (key, rs), some l =>
      if key ≠ base then illegal
      else
        let u := s.openEngine (.rget d h la) [base]
        let u := u.wrVs ((lanesOf s.active).flatMap fun i => recordWords s.d d i (rs.map l.address))
        .done (u.closeOp (u.nextOp - 1))
    | _, _ => illegal) s

/-! ## Events -/

/-- A landing operation acts at the graph scheduler: RALC joins its queue and is served as far as records are free; an RCMT
that was suspended commits. -/
def State.landingStep (s : State) (id : Nat) : State :=
  match s.op? id with
  | none => s
  | some o =>
    let base := o.nums.headD 0
    if o.complete || o.suspended.isSome then s
    else
      match o.cap.instr with
      | .ralc .. =>
        match s.useLanding o.gs base with
        | .error e => s.stopLanding o e
        | .ok s => s.reachScheduler o base
      | .rcmt .. =>
        match s.useLanding o.gs base with
        | .error e => s.stopLanding o e
        | .ok s => s.commitLate o
      | _ => s

/-- RALC_SERVE (R250, R399). -/
def execEvRalcServe (op : Nat) (s : State) : Host.Outcome State Fault Refusal := happen (fun s => s.landingStep op) s

/-- The stall limit of a RALC has passed (R250, R397). -/
def State.stallOver (s : State) (o : Op) (l : Landing) : Bool :=
  decide (0 < l.stall) && decide (o.issuedAt + l.stall ≤ s.now)

/-- The lanes still unserved receive the null address, and the requests behind go on (R250, R399). -/
def State.stallExpiry (s : State) (id : Nat) : State :=
  match s.op? id with
  | none => s
  | some o =>
    let base := o.nums.headD 0
    let (_, ctx) := s.placeOf o.gs
    match s.landing? ctx base with
    | none => s
    | some l =>
      if o.allocates.isNone || o.complete || o.suspended.isSome || !s.stallOver o l then s
      else
        let s := (o.nums.drop 1).foldl (fun (s : State) lane => s.answerLane o lane 0 true) s
        let s := s.completeOp id
        match s.landing? ctx base with
        | some l => s.serveQueue ctx base l.waiting
        | none => s

/-- RALC_STALL_EXPIRY (R250). -/
def execEvRalcStallExpiry (op : Nat) (s : State) : Host.Outcome State Fault Refusal := happen (fun s => s.stallExpiry op) s

/-- When a landing's time-out comes, if it holds pending records (R399). -/
def Landing.due (l : Landing) : Option Nat := l.pend.head?.map fun r => max r.time l.lastBatch + l.timeout

/-- BATCH_TIMEOUT (R399). -/
def execEvBatchTimeout (landing : Nat) (s : State) : Host.Outcome State Fault Refusal :=
  happen (fun s =>
    match s.landings.find? fun l => l.key == landing && (l.due.any fun t => decide (t ≤ s.now)) with
    | some l => s.formBatch l.ctx landing l.pend.length
    | none => s) s

/-- The records of a retired consumer team return to FREE (R252, R437); nothing of the team is in flight by then. -/
def State.returnRecords (s : State) (serial : Nat) : State :=
  match s.team? serial with
  | none => s
  | some t =>
    match t.batch, s.grid? t.grid with
    | some (key, rs), some g =>
      if !t.ended || t.consumerDone then s
      else
        let s := s.modLanding g.ctx key fun l => { l with free := l.free ++ rs }
        s.modTeam serial fun t => { t with consumerDone := true }
    | _, _ => s

/-- RECORD_RETURN (R437). -/
def execEvRecordReturn (team : Nat) (s : State) : Host.Outcome State Fault Refusal :=
  happen (fun s => s.returnRecords team) s

end Sys2Proof.Machine
end

