-- ==== Sys2Proof/Machine/Scheduler.lean ====
section
/-!
DEFINITION. The dispatcher: queues and doorbells, launch packets, the placement of teams and the start of their groups, requests
of R394, and the end of a launch (R32, R34, R305 to R307, R317, R386 to R394, R398, R399, R409, R414).
-/
namespace Sys2Proof.Machine

/-! ## Queues -/

/-- The physical address of a queue's descriptor (R386). -/
def State.queuePa (s : State) (q : Nat) : Nat := s.lqtab.toNat + 64 * q

/-- A field of it (R422, R469, R474). -/
def State.queueField (s : State) (q off n : Nat) : Nat := s.recordNat (s.queuePa q + off) n

def State.queueRing (s : State) (q : Nat) : Nat := s.queueField q 0 8
def State.queueHead (s : State) (q : Nat) : Nat := s.queueField q 8 4
def State.queueTail (s : State) (q : Nat) : Nat := s.queueField q 0xC 4
def State.queueWord (s : State) (q : Nat) : Nat := s.queueField q 0x10 4
def State.queueCtx (s : State) (q : Nat) : Nat := s.queueField q 0x14 2

/-- The descriptor's stack is not up (R469). -/
def State.queueLate (s : State) (q : Nat) : Bool := (s.recordReach (s.queuePa q) 64).waits

def State.queueOn (s : State) (q : Nat) : Bool := Nat.testBit (s.queueWord q) 16
def State.queueErr (s : State) (q : Nat) : Bool := Nat.testBit (s.queueWord q) 17
def State.queueLog (s : State) (q : Nat) : Nat := s.queueWord q % 256

/-- The descriptor stops its queue under a TAIL (R387). -/
def State.queueBreaks (s : State) (q tail : Nat) : Bool :=
  decide (2 ^ 18 ≤ s.queueWord q) || s.queueField q 0x16 2 != 0 || s.queueField q 0x18 40 != 0
  || s.queueLog q == 0 || decide (16 < s.queueLog q)
  || decide (2 ^ s.queueLog q < (tail + 2 ^ 32 - s.queueHead q) % 2 ^ 32)

/-- The queue stops: ERR is set, EN cleared, and vector 0 signalled (R387). -/
def State.stopQueue (s : State) (q : Nat) : State :=
  (s.wrRecord (s.queuePa q + 0x10) 4 (s.queueWord q % 2 ^ 16 + s.queueWord q / 2 ^ 18 * 2 ^ 18 + 2 ^ 17)).signal 0

/-- A doorbell: TAIL is read, as soon as the stack of the table is up, and a descriptor that breaks the table stops its queue (R387,
R469). -/
def State.doorbell (s : State) (q : Nat) : State :=
  if 64 ≤ q ∨ s.trip then s
  else if s.queueLate q then { s with belated := s.belated.filter (· != q) ++ [q] }
  else if !s.queueOn q then s
  else
    let tail := s.queueTail q
    if s.queueBreaks q tail then s.stopQueue q
    else { s with rung := sset 0 s.rung q (tail + 1), bells := sset 0 s.bells q s.fills }

/-- LQBELL (R387). -/
def execEvLqbell (queue : Nat) (s : State) : Host.Outcome State Fault Refusal := happen (fun s => s.doorbell queue) s

/-- Doorbells that waited are acted on, those whose stack is still not up wait on (R469). -/
def State.ringBelated (s : State) : State :=
  s.belated.foldl (fun (s : State) q => s.doorbell q) { s with belated := [] }

/-- The physical address of the packet at the head of a queue (R387). -/
def State.packetAddr (s : State) (q : Nat) : Nat := s.queueRing q + 128 * (s.queueHead q % 2 ^ s.queueLog q)

/-- A packet waits at the head of a queue, and its ring's stack is up (R387, R469). -/
def State.packetWaits (s : State) (q : Nat) : Bool :=
  decide (q < 64) && !s.trip && !s.queueLate q && s.queueOn q && !(s.recordReach (s.packetAddr q) 128).waits
  && sget 0 s.rung q != 0 && s.queueHead q + 1 != sget 0 s.rung q

/-- The packet's bytes, where its ring can be read. -/
def State.packetAt (s : State) (q : Nat) : Option Packet :=
  match s.recordReach (s.packetAddr q) 128 with
  | .ok key _ => some (s.rdBytes key 128)
  | _ => none

/-- The dispatcher takes the packet at the head of a queue: it is checked whole, accepted or rejected, and HEAD passes it
(R387, R389). A ring that cannot be read stops the queue, which the spec does not say. DESIGN CHOICE (log entry 34), unsafe. -/
def State.takePacket (s : State) (q : Nat) : State :=
  if !s.packetWaits q then s
  else if s.queueBreaks q (sget 0 s.rung q - 1) then s.stopQueue q
  else
    match s.packetAt q with
    | none => s.stopQueue q
    | some p =>
      let ctx := s.queueCtx q
      if s.checkWaits ctx p then s
      else
      let qclass := s.queueWord q / 2 ^ 8 % 4
      let reason := s.packetReason ctx qclass p
      let s := s.countRoute ctx reason p
      let r := (s.routing ctx p).getD { route := [], dies := [] }
      let g : Grid :=
        { key := s.nextGrid, queue := q, packet := p, ctx := ctx, budget := s.queueWord q / 2 ^ 10 % 64, qclass := qclass
          route := r.route, dies := r.dies, nextTeam := 0, teams := if reason = 0 then p.teams else 0, lastCore := 255
          kills := 0, status := if reason = 0 then 0 else 1, reason := reason, landings := [], consumerOf := none
          l1Mark := sget 0 s.bells q, accepted := reason == 0, finished := false }
      let s := s.wrRecord (s.queuePa q + 8) 4 ((s.queueHead q + 1) % 2 ^ 32)
      { s with grids := s.grids ++ [g], nextGrid := s.nextGrid + 1 }

/-- LAUNCH_PACKET (R389). -/
def execEvLaunchPacket (queue : Nat) (s : State) : Host.Outcome State Fault Refusal := happen (fun s => s.takePacket queue) s

/-! ## Room on a core -/

/-- Teams whose tiles a core holds, and teams whose bytes it holds (R118, R307). -/
def State.teamsOn (s : State) (core : Nat) : List Team := s.teams.filter fun t => t.core == core && !t.saved && !t.ended
def State.bytesOn (s : State) (core : Nat) : List Team :=
  s.teams.filter fun t => t.core == core && !t.saved && s.holdsBytes t

/-- The free group slots of a core: those of killed teams wait for the answer to their entries (R307, R456). -/
def State.freeSlots (s : State) (core : Nat) : List Nat :=
  let used := s.allGroups.map (·.gs) ++ (s.teams.filter fun t => t.killedSeq.isSome).flatMap (·.home)
  ((List.range 256).map (256 * core + ·)).filter fun gs => !used.contains gs

/-- The free tiles of a core, by key (R226). -/
def State.freeTiles (s : State) (core : Nat) : List Nat :=
  let used := (s.teamsOn core).flatMap (·.tiles)
  ((List.range 16).map (16 * core + ·)).filter fun k => !used.contains k

/-- The bytes of a team's barrier area: 128, and 64 more on core 0 of a cluster launch (R204, R208). -/
def barrierBytes (cluster : Bool) (core : Nat) : Nat := if cluster && core % 4 == 0 then 192 else 128

/-- The 4 KiB blocks of a slice below the barrier areas, which with some more bytes are kept in whole blocks at its top (R204, R208,
R318). DESIGN CHOICE (log entry 35), unsafe for a nearly full core. -/
def State.blockLimit (s : State) (core more : Nat) : Nat :=
  2048 - (((s.bytesOn core).map fun t => barrierBytes t.cluster.isSome core).foldl (· + ·) more + 4095) / 4096

/-- A run of blocks is free for a team, one of a cluster launch or not. -/
def State.blocksFree (s : State) (core : Nat) (cluster : Bool) (base n : Nat) : Bool :=
  decide (base + n ≤ s.blockLimit core (barrierBytes cluster core))
  && (s.bytesOn core).all fun t =>
    let b := (t.tbase - core * 2 ^ 23) / 4096
    let m := t.tbytes / 4096
    decide (base + n ≤ b) || decide (b + m ≤ base)

/-- The blocks at which a team's bytes may start on a core. -/
def State.freeBases (s : State) (core : Nat) (cluster : Bool) (n : Nat) : List Nat :=
  (List.range 2048).filter fun b => s.blocksFree core cluster b n

/-- A saved team could be restored now: its core's slots, registers, bytes and tiles are free (R414). -/
def State.roomToRestore (s : State) (t : Team) : Bool :=
  let gs := s.allGroups.filter fun g => g.team == t.serial && (!g.ended || g.lanes == 0)
  let free := s.freeSlots t.core
  t.saved && (gs.all fun g => free.contains (s.realSlot g.gs))
  && decide ((gs.map (·.charged)).foldl (· + ·) 0 ≤ s.freeBytes t.core)
  && s.blocksFree t.core t.cluster.isSome ((t.tbase - t.core * 2 ^ 23) / 4096) (t.tbytes / 4096)
  && t.tiles.all (s.freeTiles t.core).contains

/-- The grid's teams stand in fours on a cluster; a team of a landing's batch stands alone (R392, R399). -/
def Grid.inCluster (g : Grid) : Bool := Packet.cluster g.packet && g.consumerOf.isNone

/-- The class of a grid (R395). -/
def Grid.cls (g : Grid) : Nat := Packet.pclass g.packet

/-- A team of a grid has room on a core (R307); the restore of a team of no lower class goes first (R414). -/
def State.hasRoom (s : State) (g : Grid) (core : Nat) : Bool :=
  let p := g.packet
  g.dies.any (fun d => d.1 == core / 64) && s.dieReady (core / 64)
  && decide (Packet.groups p ≤ (s.freeSlots core).length)
  && decide (Packet.charge p ≤ s.freeBytes core)
  && decide (Packet.tiles p ≤ (s.freeTiles core).length)
  && !(s.freeBases core g.inCluster (Packet.tbytes p / 4096)).isEmpty
  && !(s.teams.any fun t => t.saved && t.core == core && s.roomToRestore t
        && (s.grid? t.grid).any fun h => decide (g.cls ≤ h.cls))

/-! ## The start of a team -/

/-- Members of a list drawn one by one: which ones the spec leaves open (R307, R318). DESIGN CHOICE (log entry 35), safe. -/
def drawFrom : Nat → Nat → List Nat → List Nat
  | _, 0, _ => []
  | tick, n + 1, ns =>
    match ns[Config.choice tick % ns.length]? with
    | none => []
    | some x => x :: drawFrom (tick + 1) n (ns.filter (· != x))

/-- A group as it starts (R32, R34, R335, R388). -/
def State.startGroup (s : State) (g : Grid) (t : Team) (gid gs : Nat) : Group :=
  let p := g.packet
  let d := Packet.d p
  let role := Packet.roleOf p gid
  let lanes := Packet.covered p (if g.consumerOf.isSome then 0 else t.index) gid
  let die := t.core / 64
  let xy := (g.dies.find? fun e => e.1 == die).getD (0, 0, 0)
  let args := Packet.args p
  let frag : Frag :=
    { Frag.empty with pc := BitVec.ofNat 64 (Packet.entry p), mr := mrReset d, exec := lanes, st := .running }
  { Group.empty with
    gs := gs, gid := gid, role := role, team := t.serial
    teamId := BitVec.ofNat 32 t.index, gridId := BitVec.ofNat 32 (Packet.gridId p)
    dieId := BitVec.ofNat 32 (die + xy.2.1 * 2 ^ 16 + xy.2.2 * 2 ^ 24)
    tangents := Fin.ofNat 9 d, sx := Packet.sx p, sy := Packet.sy p, ctx := g.ctx
    ended := lanes == 0, lanes := lanes, alloc := Packet.alloc p role
    sregs := ssets 0 [] [(0, BitVec.ofNat 32 args), (1, BitVec.ofNat 32 (args / 2 ^ 32))]
    frags := if lanes = 0 then [] else [frag], nextFrag := 1
    race := RaceState.fresh (sget 0 s.lastRegion gs + 1)
    order := s.starts + gid, cls := g.cls, dogWindow := 0
    l1Mark := if Packet.serial p || g.consumerOf.isSome then s.fills else g.l1Mark }

/-- The start under RGET: an acquire at package scope, with each record's committing group merged (R252, R335, R337). -/
def Group.startConsumer (g : Group) (rs : List Commit) : Group :=
  let r := rs.foldl (fun (r : RaceState) c => { r.merge c.gs c.bound with before := Before.join r.before c.before }) g.race
  { g with race := { r with rg := r.rg + 1 } }

/-- The start under a SERIAL launch: everything of the earlier launches of the queue is ordered before it (R393). -/
def State.startSerial (s : State) (g : Grid) (x : Group) : Group :=
  if Packet.serial g.packet then
    let earlier := s.grids.filter fun h => h.queue == g.queue && h.consumerOf.isNone && decide (h.key < g.key)
    { x with race := { x.race with before := earlier.foldl (fun b h => Before.join b h.before) x.race.before } }
  else x

/-- A team placed on a core, its groups started, its tags and its tiles cleared (R226, R307, R317, R336, R368). -/
def State.startTeam (s : State) (g : Grid) (index core block : Nat) (slots tiles : List Nat)
    (cluster : Option (Nat × List Nat)) (budget launch : Nat) (batch : List Commit) : State :=
  let p := g.packet
  let tbase := core * 2 ^ 23 + block * 4096
  let t : Team :=
    { serial := s.nextTeam, epoch := 0, grid := g.key, index := index, core := core, slots := slots, home := slots
      tbase := tbase, tbytes := Packet.tbytes p, cluster := cluster, tiles := tiles, barriers := [], passedCbar := false
      ended := false, batch := g.consumerOf.map fun k => (k, batch.map (·.record)), consumerDone := false
      request := none, unit := none, saved := false, killedSeq := none, killed := false, budget := budget, launch := launch
      store := [], storedTags := [], storedTiles := [], image := [], storedRanges := [] }
  let groups := slots.mapIdx fun gid gs =>
    let x := s.startGroup g t gid gs
    if g.consumerOf.isSome then x.startConsumer batch else s.startSerial g x
  let lo := sramKey tbase / 32
  let hi := sramKey (tbase + t.tbytes) / 32
  { s with
    teams := s.teams ++ [t], nextTeam := s.nextTeam + 1
    groups := s.groups ++ groups, starts := s.starts + slots.length
    tags := skeep (fun k => !(decide (lo ≤ k) && decide (k < hi))) s.tags
    syncs := skeep (fun k => !(decide (8 * lo ≤ k) && decide (k < 8 * hi))) s.syncs
    commits := skeep (fun k => !(decide (lo ≤ k) && decide (k < hi))) s.commits
    arrivals := s.arrivals.filter fun (e : Arrived) => !(decide (lo ≤ e.key / 32) && decide (e.key / 32 < hi))
    tiles := skeep (fun k => !tiles.contains k) s.tiles }

/-- The start of one team on a core, with its slots, bytes and tiles drawn. -/
def State.placeOn (s : State) (g : Grid) (index core : Nat) (cluster : Option (Nat × List Nat)) (block budget launch : Nat)
    (batch : List Commit) : State :=
  let p := g.packet
  let slots := drawFrom s.tick (Packet.groups p) (s.freeSlots core)
  let tiles := drawFrom (s.tick + 32) (Packet.tiles p) (s.freeTiles core)
  let s := s.startTeam g index core block slots tiles cluster budget launch batch
  { s with tick := s.tick + 64 }

/-- The block drawn for a team's bytes. -/
def State.drawBlock (s : State) (g : Grid) (core : Nat) : Nat :=
  let bs := s.freeBases core g.inCluster (Packet.tbytes g.packet / 4096)
  bs.getD (Config.choice s.tick % bs.length) 0

/-! ## Requests for pre-emption that end (R409) -/

/-- The request on teams is withdrawn where no save has begun; their stopped fragments run on (R297, R409). DEDUCED (log entry
37), unsafe. -/
def State.withdrawRequests (s : State) (which : Team → Bool) : State :=
  let mine := fun (serial : Nat) => (s.team? serial).any fun t => which t && t.request.isSome && !t.saved
  let run := fun (f : Frag) => if f.st == .stopped then { f with st := .running, liveMap := none } else f
  let s := { s with
    groups := s.groups.map fun (g : Group) => if mine g.team then { g with fullStop := false, frags := g.frags.map run } else g
    teams := s.teams.map fun (t : Team) => if mine t.serial then { t with request := none } else t }
  s.settleRequests

/-! ## Placement -/

/-- The cores of a grid's rectangle in the order of the search (R391). -/
def Grid.search (g : Grid) : List Nat :=
  let all := (List.range 256).filter fun c => g.dies.any fun d => d.1 == c / 64
  all.filter (fun c => decide (g.lastCore < c)) ++ all.filter (fun c => decide (c ≤ g.lastCore))

/-- Where the next team of a grid goes: the core, or core 0 of the cluster for the four of a cluster launch (R391, R392). A
team of a landing's batch stands alone. -/
def State.placeFor (s : State) (g : Grid) : Option Nat :=
  if g.inCluster then
    g.search.find? fun c => c % 4 == 0 && (List.range 4).all fun i => s.hasRoom g (c + i)
  else g.search.find? (s.hasRoom g)

/-- The landing that feeds a consumer grid. -/
def State.feeds (s : State) (g : Grid) : Option Landing := g.consumerOf.bind fun k => s.landing? g.ctx k

/-- A grid that has a team to place, and may: its context is whole and enabled, its queue enabled or stopped on an error, and
a SERIAL launch has no earlier launch of its queue before it (R387, R391, R393, R416). -/
def State.dispatchable (s : State) (g : Grid) : Bool :=
  g.accepted && !g.finished && !s.trip && !s.ctxDamaged g.ctx
  && match g.consumerOf with
    | some _ => (s.feeds g).any fun l => !l.formed.isEmpty
    | none =>
      let earlier := s.grids.filter fun h => h.queue == g.queue && h.consumerOf.isNone && decide (h.key < g.key) && !h.finished
      decide (g.nextTeam < g.teams) && (s.queueOn g.queue || s.queueErr g.queue)
      && !(earlier.any fun h => decide (h.nextTeam < h.teams))
      && (!Packet.serial g.packet || earlier.isEmpty)

/-- One grid goes before another: by class, then in round robin by queue number, then by age (R391). The teams of batches, whose
launches stand in no queue, come in any order within their class (R399, R438). DEDUCED (log entry 35), safe. -/
def State.placesBefore (s : State) (g h : Grid) : Bool :=
  let turn := fun (x : Grid) => (x.queue + 127 - (sget 63 s.lastQueue x.cls)) % 64
  decide (h.cls < g.cls) || (g.cls == h.cls && g.consumerOf.isNone && h.consumerOf.isNone && (decide (turn g < turn h) || (turn g == turn h && decide (g.key < h.key))))

/-- A grid whose team the dispatcher may place next: none that has room goes before it (R391). -/
def State.mayPlace (s : State) (g : Grid) : Bool :=
  s.dispatchable g && (s.placeFor g).isSome
  && !(s.grids.any fun h => s.dispatchable h && (s.placeFor h).isSome && s.placesBefore h g)

/-- The next team of a grid is placed. -/
def State.placeNext (s : State) (g : Grid) (core : Nat) : State :=
  match s.feeds g with
  | some l =>
    match l.formed with
    | [] => s
    | b :: rest =>
      let s := s.placeOn g b.index core none (s.drawBlock g core) b.budget b.launch b.records
      s.modLanding g.ctx l.key fun l => { l with formed := rest }
  | none =>
    if Packet.cluster g.packet then
      let blocks := (List.range 4).map fun i => s.drawBlock g (core + i)
      let bases := (List.range 4).map fun i => (core + i) * 2 ^ 23 + blocks.getD i 0 * 4096
      (List.range 4).foldl (fun (s : State) i =>
        s.placeOn g (g.nextTeam + i) (core + i) (some (i, bases)) (blocks.getD i 0) g.budget g.key []) s
    else s.placeOn g g.nextTeam core none (s.drawBlock g core) g.budget g.key []

/-- The team that the dispatcher asks to leave for a launch of class 3: the youngest of the lowest class below it on the
launch's cores (R394, R409). -/
def State.victim (s : State) (g : Grid) : Option Team :=
  let age := fun (t : Team) => t.serial
  let cls := fun (t : Team) => ((s.grid? t.grid).map (·.cls)).getD 3
  let cands := s.teams.filter fun t =>
    !t.ended && !t.saved && t.request.isNone && decide (cls t < g.cls) && g.dies.any fun d => d.1 == t.core / 64
  cands.find? fun t => !(cands.any fun u => decide (cls u < cls t) || (cls u == cls t && decide (age t < age u)))

/-- A request for pre-emption reaches a team, with the other teams of its cluster launch (R319, R409). DEDUCED (log entry 37),
unsafe. -/
def State.requestTeams (s : State) (ts : List Nat) (by' : Option Nat) : State :=
  let all := s.teams.filter fun t =>
    !t.ended && !t.saved
    && s.teams.any fun u => ts.contains u.serial && (s.clusterTeams u).any fun v => v.serial == t.serial
  let names := all.map (·.serial)
  -- a team that is asked already keeps the time of the first request; software's request outlives the dispatcher's
  let ask := fun (t : Team) =>
    match t.request with
    | none => { t with request := some { since := s.now, byDispatcher := by' } }
    | some r => if by'.isNone then { t with request := some { r with byDispatcher := none } } else t
  let s := { s with teams := s.teams.map fun (t : Team) => if names.contains t.serial then ask t else t }
  { s with preq := s.preq ++ [names] }.settleRequests

/-- The dispatcher's turn for a grid (R391, R392, R394): its team is placed where the grid is the one to go next, and requests
made for it are withdrawn; a launch of class 3 with no room has a team of lower class asked to leave, one at a time. -/
def State.dispatch (s : State) (key : Nat) : State :=
  match s.grid? key with
  | none => s
  | some g =>
    if !s.dispatchable g then s
    else
      match s.placeFor g with
      | some core =>
        if !s.mayPlace g then s
        else
          let n := if g.inCluster then 4 else 1
          let s := s.placeNext g core
          let s := s.modGrid key fun g => { g with nextTeam := g.nextTeam + n, lastCore := core + n - 1 }
          let s := if g.consumerOf.isNone then { s with lastQueue := sset 63 s.lastQueue g.cls g.queue } else s
          s.withdrawRequests fun t => t.request.any fun r => r.byDispatcher == some key
      | none =>
        let asked := s.teams.any fun t => !t.ended && !t.saved && t.request.any fun r => r.byDispatcher == some key
        if g.cls ≠ 3 || asked then s
        else
          match s.victim g with
          | some t => s.requestTeams [t.serial] (some key)
          | none => s

/-- TEAM_PLACEMENT (R391). -/
def execEvTeamPlacement (grid : Nat) (s : State) : Host.Outcome State Fault Refusal := happen (fun s => s.dispatch grid) s

/-! ## The end of a launch -/

/-- The landings that a launch's teams used, those that consumer teams of these used, and so on (R399); what came of an earlier state of a
landing, which has been dropped, is no part of it (R398). -/
def State.graphOf (s : State) (ctx : Nat) : Nat → List Nat → List Nat
  | 0, ks => ks
  | n + 1, ks =>
    let more := (s.grids.filter fun g => g.ctx == ctx && !g.finished && g.consumerOf.any ks.contains).flatMap (·.landings)
    s.graphOf ctx n (ks ++ more.filter fun k => !ks.contains k).eraseDups

/-- The landings of a grid's graph. -/
def State.graph (s : State) (g : Grid) : List Nat := s.graphOf g.ctx s.landings.length g.landings

/-- A consumer team of a landing has yet to retire, or to give its records back (R399, R437). -/
def State.consumes (s : State) (ctx key : Nat) : Bool :=
  s.grids.any fun g => g.ctx == ctx && g.consumerOf == some key && s.teams.any fun t => t.grid == g.key && !t.consumerDone

/-- A landing is quiet: no record pending and no batch waiting, unless none can start any more, and every consumer team retired
(R399, R416). -/
def State.quiet (s : State) (ctx : Nat) (cut : Bool) (key : Nat) : Bool :=
  (cut || match s.landing? ctx key with | some l => l.pend.isEmpty && l.formed.isEmpty | none => true) && !s.consumes ctx key

/-- The launch has ended (R390, R399, R416, R461). -/
def State.launchOver (s : State) (g : Grid) : Bool :=
  let cut := s.ctxDamaged g.ctx || s.trip
  !g.finished && g.consumerOf.isNone
  && (!g.accepted
    || ((decide (g.teams ≤ g.nextTeam) || cut)
      && !(s.teams.any fun t => t.grid == g.key && !t.ended)
      && (s.graph g).all (s.quiet g.ctx cut)))

/-- STATUS and REASON of the completion record (R390, R400). -/
def State.verdict (s : State) (g : Grid) : Nat × Nat :=
  let bad := s.landings.find? fun l => l.ctx == g.ctx && l.grids.contains g.key && l.checked.any (· != 0)
  let st := if s.ctxDamaged g.ctx && g.accepted then max g.status 3 else g.status
  match bad with
  | some l => (max st 4, l.checked.getD 0)
  | none => (st, if st = 1 then g.reason else 0)

/-- The completion record's bytes (R390). -/
def completionRecord (status reason kills time : Nat) : List Byte :=
  leBytes 1 status ++ leBytes 1 reason ++ leBytes 2 0 ++ leBytes 4 kills ++ leBytes 8 time

/-- Landings that no unfinished launch's graph reaches, and no consumer team, are given up: FREE and PEND are written, and the state is
dropped (R398). DEDUCED (log entry 36), unsafe. -/
def State.dropLandings (s : State) : State :=
  let user := fun (l : Landing) => ((s.grids.find? fun g => g.ctx == l.ctx && g.landings.contains l.key).map (·.key)).getD s.nextGrid
  -- one whose descriptor's stack is not up is given up later (R469)
  let kept := fun (l : Landing) => s.consumes l.ctx l.key || s.deviceWaits (user l) l.ctx (l.key + 0x20) 8 || s.grids.any fun g =>
    g.ctx == l.ctx && g.consumerOf.isNone && !g.finished && (s.graph g).contains l.key
  let gone := s.landings.filter fun l => !kept l
  let s := gone.foldl (fun (s : State) l =>
    (s.deviceWrite (user l) l.ctx (l.key + 0x20) (leBytes 4 l.cap ++ leBytes 4 0)).getD
      (s.countFailedVa (user l) l.ctx (l.key + 0x20) 8)) s
  let dead := fun (g : Grid) => gone.any fun l => l.ctx == g.ctx && g.consumerOf == some l.key
  { s with
    landings := s.landings.filter kept
    grids := s.grids.map fun g => if dead g then { g with finished := true } else g }

/-- What the consumer teams of a launch's graph did comes before a later SERIAL launch too (R393, R399). -/
def State.joinGraph (s : State) (g : Grid) : State :=
  let ks := s.graph g
  let fed := s.grids.filter fun h => h.ctx == g.ctx && h.consumerOf.any ks.contains
  s.modGrid g.key fun g => { g with before := fed.foldl (fun b h => Before.join b h.before) g.before }

/-- A launch ends: its record is written, its interrupt signalled, and what it alone kept is given up (R390, R398). -/
def State.finishLaunch (s : State) (key : Nat) : State :=
  match s.grid? key with
  | none => s
  | some g =>
    let at' := Packet.record g.packet
    if !s.launchOver g || (decide (at' ≠ 0) && s.deviceWaits g.key g.ctx at' 16) then s
    else
      let v := s.verdict g
      let s := if at' = 0 then s
        else (s.deviceWrite g.key g.ctx at' (completionRecord v.1 v.2 g.kills s.now)).getD (s.countFailedVa g.key g.ctx at' 16)
      let s := if Packet.intr g.packet then s.signal (Packet.vector g.packet) else s
      -- every write of the grid has performed at its home, and is in sight of all
      let s := { s.joinGraph g with recent := [] }
      (s.modGrid key fun g => { g with finished := true, status := v.1, reason := v.2 }).dropLandings.wakeAll

/-- LAUNCH_COMPLETION (R390). -/
def execEvLaunchCompletion (grid : Nat) (s : State) : Host.Outcome State Fault Refusal :=
  happen (fun s => s.finishLaunch grid) s

end Sys2Proof.Machine
end

