-- ==== Sys2Proof/Machine/Contexts.lean ====
section
/-!
DEFINITION. Pre-emption across contexts: requests and their withdrawal, the escalation to a full save, the save of a team into
context slots and a save unit, and its restore (R123 to R125, R215, R319, R366, R376, R405 to R417, R474).
-/
namespace Sys2Proof.Machine

/-! ## Requests (R409) -/

/-- Fields of a word written to PREQ. -/
def preqCtx (v : Nat) : Nat := v % 2 ^ 16
def preqCore (v : Nat) : Nat := v / 2 ^ 16 % 2 ^ 8
def preqAll (v : Nat) : Bool := Nat.testBit v 24
def preqCancel (v : Nat) : Bool := Nat.testBit v 25

/-- A team that the fields of PREQ name, with the other teams of its cluster launch (R319, R409). -/
def State.preqNames (s : State) (v : Nat) (t : Team) : Bool :=
  (s.clusterTeams t).any fun u =>
    (preqAll v || u.core == preqCore v) && (s.grid? u.grid).any fun g => g.ctx == preqCtx v

/-- A request written to PREQ (R409). -/
def State.preemptRequest (s : State) (v : Nat) : State :=
  if 2 ^ 26 ≤ v ∨ preqCancel v then s
  else s.requestTeams ((s.teams.filter (s.preqNames v)).map (·.serial)) none

/-- PREEMPT_REQUEST (R409). -/
def execEvPreemptRequest (value : Nat) (s : State) : Host.Outcome State Fault Refusal :=
  happen (fun s => s.preemptRequest value) s

/-- A cancel written to PREQ: it withdraws the request from the teams it names whose save has not started (R409). -/
def State.preemptCancel (s : State) (v : Nat) : State :=
  if 2 ^ 26 ≤ v ∨ !preqCancel v then s else s.withdrawRequests (s.preqNames v)

/-- PREEMPT_CANCEL (R409). -/
def execEvPreemptCancel (value : Nat) (s : State) : Host.Outcome State Fault Refusal :=
  happen (fun s => s.preemptCancel value) s

/-- PRCNT_READ (R409): the read clears the count. -/
def execEvPrcntRead (s : State) : Host.Outcome State Fault Refusal := happen (fun s => { s with prcnt := 0 }) s

/-! ## When a group can be saved -/

/-- Each fragment has stopped at a PPT, waits at a join, or holds no lanes (R123, R410). That a group all of whose lanes are parked has
not stopped is a DEDUCED reading (log entry 38): unsafe for the moment of a save. -/
def Group.stoppedByMaps (g : Group) : Bool :=
  !g.frags.isEmpty && g.frags.all fun f => f.exec == 0 || f.st == .stopped || f.st == .joined || f.st == .heldOverflow

/-- A pending ray of the group has its record in the SRAM space (R366). -/
def Group.rayInSram (g : Group) : Bool := g.rays.any fun p => decide (sramVa ≤ p.record) && decide (p.record < blockVa)

/-- The group's counters are zero but CR's, and no SORTK is in progress (R412). -/
def State.drainedForSave (s : State) (g : Group) : Bool :=
  ([Path.ls, .sk, .kf, .cn, .ra, .tx].all fun p => s.pathCount g.gs p == 0)
  && (s.sortOf g.gs).isNone && !g.rayInSram

/-- The group can be saved (R412). -/
def State.canSaveGroup (s : State) (g : Group) : Bool := (g.stoppedByMaps || g.fullStop) && s.drainedForSave g

/-- Every group of a team that has not ended can be saved. -/
def State.canSaveTeam (s : State) (t : Team) : Bool :=
  t.request.isSome && (s.liveGroups t.serial).all s.canSaveGroup

/-- An access of another team to the team's bytes that has still to perform waits for the restore from now on, the whole operation with
it, and a transaction that has such accesses aborts with code 4 (R219, R319, R417). DEDUCED (log entry 38), unsafe for the lanes that wait
with it. -/
def State.holdReaching (s : State) (t : Team) : State :=
  let here := s.places t.serial
  let lo := sramKey t.tbase
  let touches := fun (g : Group) =>
    !here.contains g.gs && g.tx.set.any fun e => decide (lo ≤ e.1) && decide (e.1 < lo + t.tbytes)
  let s := (s.allGroups.filter touches).foldl (fun (s : State) g => s.abortTx g.gs 4) s
  let reaches := fun (o : Op) => o.path == some .ls && !o.complete && !here.contains o.gs
    && o.todo.any fun x => decide (lo ≤ x.pa) && decide (x.pa < lo + t.tbytes)
  { s with ops := s.ops.map fun (o : Op) => if reaches o then { o with suspended := some none, waits := some t.serial } else o }

/-- A full save of a group 100 µs after its team's request, unless it has stopped by maps: its fragments stop, and an open
transaction aborts (R219, R411, R412). -/
def State.escalate (s : State) (gs : Nat) : State :=
  match s.group? gs with
  | none => s
  | some g =>
    let due := match (s.team? g.team).bind (·.request) with
      | some r => decide (r.since + 100000 ≤ s.now)
      | none => false
    if g.ended || g.saved || g.fullStop || g.stoppedByMaps || !due then s
    else (s.abortTx gs 6).modGroup gs fun g => { g with fullStop := true }

/-- FULL_SAVE_ESCALATION (R411). -/
def execEvFullSaveEscalation (gs : Nat) (s : State) : Host.Outcome State Fault Refusal := happen (fun s => s.escalate gs) s

/-! ## What a save holds (R410, R411, R413) -/

/-- The live maps at which the group's fragments stopped. -/
def Group.maps (g : Group) : List (List Byte) := g.frags.filterMap fun f => f.liveMap.map (leBytes 64)

/-- Registers that a save by maps keeps (R124, R410). -/
def Group.liveV (g : Group) (r : Nat) : Bool := g.maps.any fun e => Nat.testBit (fieldAt e 0 14) r
def Group.liveS (g : Group) (k : Nat) : Bool := g.maps.any fun e => Nat.testBit (fieldAt e 0x10 8) k

/-- Ranges of a group's maps (R124). -/
def Group.ranges (g : Group) : List (Nat × Nat) :=
  g.maps.flatMap fun e =>
    (List.range (fieldAt e 0x18 4)).map fun j => (fieldAt e (0x20 + 8 * j) 4, fieldAt e (0x24 + 8 * j) 4)

/-- The ranges that a save of the team writes: all of its bytes where a group is saved in full (R410, R411). -/
def State.saveRanges (s : State) (t : Team) : List (Nat × Nat) :=
  let gs := s.liveGroups t.serial
  if gs.any (·.fullStop) then [(0, t.tbytes)] else (gs.flatMap (·.ranges)).eraseDups

/-- An offset lies in one of the ranges. -/
def inRanges (rs : List (Nat × Nat)) (off : Nat) : Bool := rs.any fun r => decide (r.1 ≤ off) && decide (off < r.2)

/-- Registers that no map names are given up in a save by maps (R125). -/
def Group.trim (g : Group) : Group :=
  if g.fullStop then g
  else { g with vregs := skeep (fun k => g.liveV (k / 512)) g.vregs, sregs := skeep g.liveS g.sregs }

/-- The group holds a slot of the core: it has not ended, or the grid covered none of its lanes from the start (R388). -/
def Group.holdsSlot (g : Group) : Bool := !g.ended || g.lanes == 0

/-- The group as its image holds it; its fragments are to run on when it is restored (R297, R417). -/
def Group.asSaved (g : Group) : Group :=
  let g := g.trim
  let place := savedSlot g.team g.gid
  { g with
    gs := place, saved := true, fullStop := false, fencing := [], holds := []
    frags := g.frags.map fun (f : Frag) =>
      { f with st := if f.st == .stopped then .running else f.st, liveMap := none } }

/-- The compact tag of a granule (R413), as it stands when it has been restored (R415). -/
def Tag.compact (t : Tag) : Tag :=
  { t with rda := none, rdb := none, many := t.many || t.rda.isSome || t.rdb.isSome, manyTeam := none, manyEpoch := 0 }

/-- The image of a tile (R376). -/
def Tile.image (t : Tile) : List Byte :=
  (List.range 8192).flatMap (fun k => leBytes 4 (sget 0 t.acc k))
  ++ (List.range 8192).flatMap (fun k => leBytes 4 (sget 0 t.nar k))
  ++ leBytes 4 (t.c % 16 * 16 + (if t.ov then 1 else 0) + (if t.nv then 2 else 0) + (if t.sat then 4 else 0)
      + (if t.td then 8 else 0))
  ++ List.replicate 60 0

/-- The link stack of a lane, the first call first: its fragment's, its parked fragment's, or that of the join where it waits. -/
def Group.linksOf (g : Group) (l : Nat) : List Addr :=
  match g.frags.find? fun f => (f.exec ||| f.clr).getLsbD l with
  | some f => f.links.reverse
  | none =>
    match g.parked.find? fun p => p.cap.act.getLsbD l, g.joins.find? fun j => j.wait.getLsbD l with
    | some p, _ => p.links.reverse
    | none, some j => j.links.reverse
    | none, none => []

/-- LINK (R406): which end of a stack stands first is a DEDUCED reading (log entry 39), unsafe. -/
def Group.linkBytes (g : Group) (tick va : Nat) : List Byte :=
  (List.range 32).flatMap fun l =>
    let bs := (g.linksOf l).flatMap fun a => leBytes 8 a.toNat
    bs ++ hiddenBytes tick (va + 256 * l + bs.length) (256 - bs.length)

/-- The first 16 KiB of a group's context slot (R406): the bits of HDR, SREG, SPLIT and LINK are as the spec lays them out, and PARK
and PARKOP stand in the slot already. -/
def Group.slotImage (g : Group) (tick va : Nat) (park : List Byte) : List Byte :=
  let hdr := (leNat (hiddenBytes tick va 1)) / 16 * 16 + 1 + (if g.fullStop then 2 else 0)
    + (if g.handler.isSome then 4 else 0) + (if g.savedScopes.isSome then 8 else 0)
  let sreg := (List.range 64).flatMap fun k =>
    if g.fullStop || g.liveS k then leBytes 4 (sget 0 g.sregs k).toNat else hiddenBytes tick (va + 0x100 + 4 * k) 4
  leBytes 1 hdr ++ hiddenBytes tick (va + 1) 0xFF ++ sreg ++ hiddenBytes tick (va + 0x200) 0x200 ++ g.splitBytes
    ++ g.linkBytes tick (va + 0x800) ++ hiddenBytes tick (va + 0x2800) 0x200 ++ park
    ++ hiddenBytes tick (va + 0x3600) 0x600 ++ List.replicate 0x400 0

/-- Bytes cut into blocks of 4 KiB, with their addresses. -/
def blocksOf (gs va : Nat) (bs : List Byte) : List (Nat × Nat × List Byte) :=
  (List.range ((bs.length + 4095) / 4096)).map fun i => (gs, va + 4096 * i, (bs.drop (4096 * i)).take 4096)

/-- Ranges of bytes cut into the parts of 4 KiB blocks that they cover. -/
def rangeBlocks (gs va : Nat) (rs : List (Nat × Nat)) (at' : Nat → Byte) : List (Nat × Nat × List Byte) :=
  rs.flatMap fun r => (List.range ((r.2 + 4095) / 4096 - r.1 / 4096)).map fun i =>
    let lo := max r.1 ((r.1 / 4096 + i) * 4096)
    let hi := min r.2 ((r.1 / 4096 + i + 1) * 4096)
    (gs, va + lo, (List.range (hi - lo)).map fun j => at' (lo + j))

/-- The blocks of the save unit at an address (R408): registers, tiles, SRAM bytes, tags and integrity tags. -/
def State.unitImage (s : State) (t : Team) (ranges : List (Nat × Nat)) (va : Nat) : List (Nat × Nat × List Byte) :=
  let gs := s.liveGroups t.serial
  let first := t.home.headD 0
  let size := fun (gid : Nat) =>
    match s.allGroups.find? fun g => g.team == t.serial && g.gid == gid with
    | some g => pages (charge g.tangents g.alloc)
    | none => 0
  let vreg := va + 0x4000
  let start := fun (gid : Nat) => vreg + ((List.range gid).map size).foldl (· + ·) 0
  let tiles := start t.home.length
  let sram := tiles + t.tiles.length * 69632
  let tags := sram + t.tbytes
  let itag := tags + t.tbytes
  let slot := fun (g : Group) => t.home.getD g.gid first
  blocksOf first va (hiddenBytes s.tick va 0x4000)
    ++ gs.flatMap (fun (g : Group) => blocksOf (slot g) (start g.gid) (hiddenBytes s.tick (start g.gid) (size g.gid)))
    ++ (List.range t.tiles.length).flatMap (fun i =>
        blocksOf first (tiles + i * 69632)
          (sget Tile.zero s.tiles (t.tiles.getD i 0)).image)
    ++ rangeBlocks first sram ranges (fun off => s.rdByte (sramKey t.tbase + off))
    ++ rangeBlocks first tags ranges (fun off => Config.hidden s.tick (tags + off))
    ++ blocksOf first itag (hiddenBytes s.tick itag (pages (16 * ((itag - vreg + 4095) / 4096))))

/-- The blocks of the groups' context slots: the parked fragments, a live frame, or scopes saved under R129, stand in them already
(R301, R406, R411). One that cannot be read is the answer (R474). -/
def State.slotImages (s : State) (ctx : Nat) (t : Team) : Except (Nat × Nat) (List (Nat × Nat × List Byte)) :=
  ((s.liveGroups t.serial).mapM fun (g : Group) =>
    let home := t.home.getD g.gid 0
    let va := s.slotVa ctx home
    show Except (Nat × Nat) (List (Nat × Nat × List Byte)) from
    match s.deviceRead t.grid ctx (va + 0x2A00) 0xC00 with
    | none => .error (home, va + 0x2000)
    | some park =>
      let slot := blocksOf home va (g.slotImage s.tick va park)
      if g.handler.isSome || g.savedScopes.isSome then
        match s.deviceRead t.grid ctx (va + 0x4000) 0xC000 with
        | some bs => .ok (slot ++ blocksOf home (va + 0x4000) bs)
        | none => .error (home, va + 0x4000)
      else .ok slot).map fun bs => bs.flatMap id

/-- Blocks written one after another; the first that cannot be is the answer. -/
def State.writeBlocks (s : State) (grid ctx : Nat) : List (Nat × Nat × List Byte) → Except (Nat × Nat) State
  | [] => .ok s
  | (gs, va, bs) :: rest =>
    match s.deviceWrite grid ctx va bs with
    | some s => s.writeBlocks grid ctx rest
    | none => .error (gs, va / 4096 * 4096)

/-- The first block that cannot be read, or no longer holds what was written: that is what the comparison of integrity tags
finds (R415, R416). DESIGN CHOICE (log entry 39), unsafe for a collision of hashes. -/
def State.badBlock (s : State) (grid ctx : Nat) (image : List (Nat × Nat × List Byte)) : Option (Nat × Nat) :=
  (image.find? fun b => s.deviceRead grid ctx b.2.1 b.2.2.length != some b.2.2).map fun b => (b.1, b.2.1 / 4096 * 4096)

/-! ## Save units (R405, R407) -/

/-- A context's save-unit pool. -/
def State.saBase (s : State) (ctx : Nat) : Nat := s.ctxField ctx 0x10 8
def State.unitCount (s : State) (ctx : Nat) : Nat := s.ctxField ctx 0x1C 4

/-- Bit u of SAMAP, none where it cannot be read. -/
def State.unitHeld (s : State) (grid ctx u : Nat) : Option Bool :=
  (s.deviceRead grid ctx (s.mapVa ctx u) 1).map fun bs => Nat.testBit (leNat bs) (u % 8)

/-- The lowest units from one on, so many at most, that are free or whose bits cannot be read. -/
def State.unitsFrom (s : State) (grid ctx : Nat) : Nat → Nat → Nat → List Nat
  | 0, _, _ => []
  | _, _, 0 => []
  | left + 1, u, n + 1 =>
    if s.unitHeld grid ctx u = some true then s.unitsFrom grid ctx left (u + 1) (n + 1)
    else u :: s.unitsFrom grid ctx left (u + 1) n
def State.lowestUnits (s : State) (grid ctx n : Nat) : List Nat := s.unitsFrom grid ctx (s.unitCount ctx) 0 n

/-! ## Saving -/

/-- What had been numbered under a slot stands under another number. -/
def State.renumber (s : State) (map : Nat → Nat) : State :=
  { s with
    ops := s.ops.map fun (o : Op) => { o with gs := map o.gs }
    rays := s.rays.map fun (r : Ray) => { r with gs := map r.gs }
    faults := s.faults.map fun (f : FaultRec) => { f with gs := map f.gs } }

/-- The number in one list that stands where another list has a number. -/
def carry (from' to' : List Nat) (gs : Nat) : Nat :=
  match from'.findIdx? (· == gs) with
  | some i => to'.getD i gs
  | none => gs

/-- The team leaves its core: what the core held of it is in the image, and its storage is given up (R413). -/
def State.leaveCore (s : State) (t : Team) (ranges : List (Nat × Nat)) (image : List (Nat × Nat × List Byte)) : State :=
  let lo := sramKey t.tbase
  let granule := fun (k : Nat) => decide (lo / 32 ≤ k) && decide (k < (lo + t.tbytes) / 32)
  let places := (List.range t.slots.length).map (savedSlot t.serial)
  let saved := fun (u : Team) =>
    { u with
      slots := places, saved := true, request := none, image := image, storedRanges := ranges
      store := ssets blankByte [] (((List.range t.tbytes).filter (inRanges ranges)).map fun off => (off, s.rdByte (lo + off)))
      storedTags := (s.tags.filter fun kt => granule kt.1 && inRanges ranges (32 * kt.1 - lo)).map fun kt =>
        (kt.1 - lo / 32, kt.2.compact)
      storedSyncs := (s.syncs.filter fun kt => granule (kt.1 / 8)).map fun kt => (kt.1 - lo / 4, kt.2)
      storedCommits := (s.commits.filter fun kt => granule kt.1).map fun kt => (kt.1 - lo / 32, kt.2)
      storedArrivals := (s.arrivals.filter fun (e : Arrived) => granule (e.key / 32)).map fun e => { e with key := e.key - lo }
      storedTiles := s.tiles.filter fun kt => t.tiles.contains kt.1 }
  let s := { s with
    groups := s.groups.map fun (g : Group) => if g.team == t.serial && g.holdsSlot then g.asSaved else g
    teams := s.teams.map fun (u : Team) => if u.serial == t.serial then saved u else u
    -- a group that starts in a slot meanwhile takes regions beyond those of the saved one (R335)
    lastRegion := (s.liveGroups t.serial).foldl (fun (m : Sparse Nat) (g : Group) =>
      sset 0 m g.gs (max g.race.rg (sget 0 m g.gs))) s.lastRegion
    tags := skeep (fun k => !granule k) s.tags
    syncs := skeep (fun k => !granule (k / 8)) s.syncs
    commits := skeep (fun k => !granule k) s.commits
    arrivals := s.arrivals.filter fun (e : Arrived) => !granule (e.key / 32)
    tiles := skeep (fun k => !t.tiles.contains k) s.tiles
    memory := ssets blankByte s.memory ((List.range t.tbytes).map fun off => (lo + off, Config.hidden s.tick (lo + off)))
    prcnt := if s.prcnt = BitVec.allOnes 32 then s.prcnt else s.prcnt + 1 }
  (s.renumber (carry t.slots places)).draw

/-- One team is written into its save unit and context slots, and leaves its core; the answer names the block that stopped it,
by group slot and address. -/
def State.saveOne (s : State) (ctx u : Nat) (t : Team) : Except (Nat × Nat) State :=
  let first := t.home.headD 0
  match s.mapUnit t.grid ctx u true with
  | none => .error (first, s.mapVa ctx u)
  | some s =>
    let s := s.modTeam t.serial fun t => { t with unit := some u }
    let ranges := s.saveRanges t
    match s.writeAllParked (s.liveGroups t.serial) with
    | .error e => .error e
    | .ok s =>
    match s.slotImages ctx t with
    | .error e => .error e
    | .ok slots =>
      let image := slots ++ s.unitImage t ranges (s.saBase ctx + u * s.saUnit ctx)
      match s.writeBlocks t.grid ctx image with
      | .error e => .error e
      | .ok s => .ok ((s.holdReaching t).leaveCore t ranges image)

/-- Teams saved one after another into the units drawn for them; a failure damages the context (R474). -/
def State.saveAll (s : State) (ctx grid : Nat) : List (Team × Nat) → State
  | [] => s.settleRequests
  | (t, u) :: rest =>
    match s.saveOne ctx u t with
    | .ok s => s.saveAll ctx grid rest
    | .error (gs, va) => s.damage ctx grid gs va

/-- A save has to wait for a stack: of its context record, of SAMAP as far as units are looked for there, of a context slot or of the
save unit (R469). -/
def State.saveWaits (s : State) (ctx grid : Nat) (tus : List (Team × Nat)) : Bool :=
  let wait := s.deviceWaits grid ctx
  (s.recordReach (s.ctxPa ctx) 64).waits
  || ((List.range ((tus.map (·.2)).foldl max 0 + 1)).any fun u => wait (s.mapVa ctx u) 1)
  || tus.any fun tu =>
    ((s.liveGroups tu.1.serial).any fun g => s.parkedWait g
      || wait (s.slotVa ctx (tu.1.home.getD g.gid 0)) (if g.handler.isSome || g.savedScopes.isSome then 0x10000 else 0x4000))
    || (s.unitImage tu.1 (s.saveRanges tu.1) (s.saBase ctx + tu.2 * s.saUnit ctx)).any fun b => wait b.2.1 b.2.2.length

/-- The open transactions of a team's groups abort at its stop (R219, R412). -/
def State.stopTx (s : State) (t : Team) : State :=
  (s.liveGroups t.serial).foldl (fun (s : State) g => s.abortTx g.gs 6) s

/-- A team is saved, with the other teams of its cluster launch, once each of their groups can be and units are free (R407,
R412). -/
def State.saveTeam (s : State) (serial : Nat) : State :=
  match s.team? serial with
  | none => s
  | some t =>
    match s.grid? t.grid with
    | none => s
    | some g =>
      let ts := (s.clusterTeams t).filter fun u => !u.ended
      let units := s.lowestUnits g.key g.ctx ts.length
      if t.ended || !(ts.all fun u => !u.saved && s.canSaveTeam u) || units.length < ts.length
          || s.saveWaits g.ctx g.key (ts.zip units) then s
      else (ts.foldl State.stopTx s).saveAll g.ctx g.key (ts.zip units)

/-- TEAM_SAVE (R412). -/
def execEvTeamSave (team : Nat) (s : State) : Host.Outcome State Fault Refusal := happen (fun s => s.saveTeam team) s

/-! ## Restoring -/

/-- Entries of a group's pending table whose ray no Cruiser and no queue holds any more, and at a restore also those whose ray has
finished meanwhile, for its delivery was refused (R366): each record is read, and settled where it is DONE or ANYHIT. A ray that another
group has resumed since is that group's (R246, R365). A read that
fails is a fault of the CRUZ that launched the ray. DEDUCED (log entry 40), unsafe. -/
def State.settlePending (s : State) (restored : Bool) (gs : Nat) : State :=
  match s.anyGroup? gs with
  | none => s
  | some g =>
    if g.saved then s
    else
      let (grid, ctx) := s.placeOf gs
      let mine := fun (p : PendingRay) (r : Ray) => r.record == p.record && r.ctx == ctx && r.toOwner == gs
      let drop := fun (s : State) p => { s with rays := s.rays.filter fun (r : Ray) => !mine p r }
      (g.rays.filter fun p => !s.rays.any fun r => mine p r && !(restored && r.code.isSome)).foldl (fun (s : State) p =>
        match s.engineRead grid ctx p.record 192 with
        | .ok bs =>
          if recStatus bs = statusDone then (drop s p).giveLane gs p fun d => plainWords d (p.dest + 5) p.lane 5
          else if recStatus bs = statusAnyhit then (drop s p).giveLane gs p fun d => hitWords d p.dest p.lane (recHit bs) 2
          else s
        | .error e =>
          match s.op? p.op with
          | none => s
          | some o =>
            if o.suspended.isSome then s
            else
              let s := s.stopOp o e false
              if (s.op? p.op).isNone then s.modGroup gs fun g => { g with rays := g.rays.filter (·.op != p.op) } else s) s

/-- What was suspended on a read at a restore, or on a binding, goes on (R225). -/
def State.resumeSuspended (s : State) : State :=
  (s.allGroups.filter fun g => !g.rays.isEmpty).foldl (fun (s : State) g => s.settlePending false g.gs) s.resumeBinds

/-- A restored group on its slot again, in the start order of its restore (R414, R417). -/
def Group.asRestored (g : Group) (home order : Nat) : Group :=
  { g with gs := home, saved := false, order := order, waitCount := 0, yielded := none }

/-- The team's storage comes back to its core: bytes that no range names read as zero (R125, R415). -/
def State.enterCore (s : State) (t : Team) : State :=
  let lo := sramKey t.tbase
  let granule := fun (k : Nat) => decide (lo / 32 ≤ k) && decide (k < (lo + t.tbytes) / 32)
  let s := { s with
    groups := s.groups.map fun (g : Group) =>
      if g.team == t.serial && g.holdsSlot then g.asRestored (t.home.getD g.gid 0) (s.starts + g.gid) else g
    teams := s.teams.map fun (u : Team) =>
      if u.serial == t.serial then
        { u with slots := t.home, saved := false, store := [], storedTags := [], storedTiles := [], image := [],
                 storedRanges := [], storedSyncs := [], storedCommits := [], storedArrivals := [] }
      else u
    starts := s.starts + t.home.length
    tags := ssets Tag.empty (skeep (fun k => !granule k) s.tags) (t.storedTags.map fun (kt : Nat × Tag) => (lo / 32 + kt.1, kt.2))
    syncs := ssets [] (skeep (fun k => !granule (k / 8)) s.syncs)
      (t.storedSyncs.map fun (kt : Nat × List Release) => (lo / 4 + kt.1, kt.2))
    commits := ssets [] (skeep (fun k => !granule k) s.commits)
      (t.storedCommits.map fun (kt : Nat × List (Bool × Release)) => (lo / 32 + kt.1, kt.2))
    arrivals := t.storedArrivals.map (fun (e : Arrived) => { e with key := lo + e.key })
      ++ s.arrivals.filter fun (e : Arrived) => !granule (e.key / 32)
    tiles := ssets Tile.zero (skeep (fun k => !t.tiles.contains k) s.tiles) t.storedTiles
    memory := ssets blankByte (skeep (fun k => decide (k < lo) || decide (lo + t.tbytes ≤ k)) s.memory)
      (t.store.map fun (kb : Nat × Byte) => (lo + kb.1, kb.2)) }
  ((s.clearPoison lo t.tbytes).renumber (carry t.slots t.home))

/-- Groups that had ended before the save stand under their own numbers still; the slots of the others are as at the start. -/
def State.keepEnded (s : State) (t : Team) : State :=
  (s.allGroups.filter fun g => g.team == t.serial && !g.holdsSlot).foldl (fun (s : State) g =>
    s.modTeam t.serial fun u => { u with slots := u.slots.set g.gid g.gs }) s

/-- A parked fragment stood in a saved context slot, in the third of its blocks (R406, R449). -/
def Team.parkedSaved (t : Team) (gs : Nat) : Bool :=
  match (t.image.filter fun b => b.1 == gs)[2]? with
  | some b => (List.range 32).any fun i => leNat ((b.2.2.drop (0xA00 + 32 * i)).take 4) != 0
  | none => false

/-- The records of parked fragments that have been answered while their team was saved are brought up to date in the slots (R301, R450);
`t` is the team as it was saved. -/
def State.freshenParked (s : State) (t : Team) : State :=
  (s.liveGroups t.serial).foldl (fun (s : State) (g : Group) =>
    if g.parked.isEmpty && !t.parkedSaved g.gs then s else s.mustWriteParked g) s

/-- What follows a team's return: its unit is free, what waited for it goes on, its pending rays are settled (R319, R366,
R407, R417). -/
def State.afterRestore (s : State) (t : Team) : State :=
  let s := s.freshenParked t
  let s := (s.freeUnit t.serial).releaseWaiters t.serial true
  let s := (s.liveGroups t.serial).foldl (fun (s : State) g => s.settlePending true g.gs) s
  s.resumeBinds.wakeAll

/-- A launch of higher class is to place its next team where the saved team's place is: it goes ahead of the restore (R391, R414).
DEDUCED (log entry 35), unsafe. -/
def State.givesWay (s : State) (t : Team) : Bool :=
  s.grids.any fun h =>
    s.mayPlace h && decide (((s.grid? t.grid).map (·.cls)).getD 0 < h.cls)
    && (s.placeFor h).any fun c =>
      c == t.core || (Packet.cluster h.packet && h.consumerOf.isNone && c / 4 == t.core / 4)

/-- A team is restored, with the other teams of its cluster launch, when all they need is free; every block is compared first
(R319, R414 to R416). -/
def State.restoreTeam (s : State) (serial : Nat) : State :=
  match s.team? serial with
  | none => s
  | some t =>
    match s.grid? t.grid with
    | none => s
    | some g =>
      let ts := (s.clusterTeams t).filter fun u => !u.ended
      if t.ended || !(ts.all s.roomToRestore) || ts.any s.givesWay
          || (ts.any fun u => u.image.any fun b => s.deviceWaits g.key g.ctx b.2.1 b.2.2.length) then s
      else
        match ts.findSome? fun u => s.badBlock g.key g.ctx u.image with
        | some (gs, va) => s.damage g.ctx g.key gs va
        | none =>
          let s := ts.foldl (fun (s : State) u => (s.enterCore u).keepEnded u) s
          ts.foldl (fun (s : State) u => s.afterRestore u) s

/-- TEAM_RESTORE (R414). -/
def execEvTeamRestore (team : Nat) (s : State) : Host.Outcome State Fault Refusal := happen (fun s => s.restoreTeam team) s

end Sys2Proof.Machine
end

