-- ==== Sys2Proof/Machine/Special.lean ====
section
/-!
DEFINITION. The special functions (R61 to R65). The special cases and the exact cases are computed. Elsewhere the spec
bounds the error only: `Config.special` draws the results among the F32 values within the bound, in an order that keeps them
monotone (R64).
-/
namespace Sys2Proof.Machine

/-- The fraction bits of the reference computation. -/
def refBits : Nat := 160

/-- ln 2 to `refBits` fraction bits. -/
def ln2Ref : Nat := 1013035739299659071135698605846798551586536899366

/-- 2π rounded to 64 significant bits, in units of 2^-61: C of R63. -/
def twoPi61 : Nat := 14488038916154245685

/-- The next terms of a power series: acc + Σ of term × x^j (k+1)…(k+j) with the steps' divisors, `n` of them; `alt` flips
signs and `st` is 1 for the exponential and 2 for sine and cosine. -/
def series (x : Int) (alt : Bool) (st : Nat) : Nat → Nat → Int → Int → Int
  | 0, _, _, acc => acc
  | n + 1, k, term, acc =>
    let t := if st = 1 then term * x / 2 ^ refBits / (k + 1 : Nat)
      else term * x / 2 ^ refBits * x / 2 ^ refBits / ((k + 1) * (k + 2) : Nat)
    let t := if alt then -t else t
    series x alt st n (k + st) t (acc + t)

/-- e^x for x in [0, 1), in units of 2^-refBits. -/
def expRef (x : Int) : Int := series x false 1 45 0 (2 ^ refBits) (2 ^ refBits)

/-- sin x for |x| ≤ 4. -/
def sinRef (x : Int) : Int := series x true 2 40 1 x x

/-- cos x for |x| ≤ 4. -/
def cosRef (x : Int) : Int := series x true 2 40 0 (2 ^ refBits) (2 ^ refBits)

/-- n × 2^u in units of 2^-refBits. -/
def toRef (n : Int) (u : Int) : Int :=
  let s := u + refBits
  if 0 ≤ s then n * 2 ^ s.toNat else n / 2 ^ (-s).toNat

/-- 2^x for x in units of 2^-refBits. -/
def exp2Ref (x : Int) : Exact :=
  let n := x / 2 ^ refBits
  let f := x % 2 ^ refBits
  .num false (expRef (f * ln2Ref / 2 ^ refBits)).toNat (n - refBits)

/-- e^x for x in units of 2^-refBits. -/
def expERef (x : Int) : Exact := exp2Ref (x * 2 ^ refBits / ln2Ref)

/-- The fraction bits of log2 y, y in [1, 2) with refBits fraction bits, by repeated squaring. -/
def log2Frac : Nat → Nat → Nat → Nat
  | 0, _, acc => acc
  | n + 1, y, acc =>
    let y := y * y / 2 ^ refBits
    if 2 ^ (refBits + 1) ≤ y then log2Frac n (y / 2) (2 * acc + 1) else log2Frac n y (2 * acc)

/-- log2 of m × 2^e. -/
def log2Ref (m : Nat) (e : Int) : Exact :=
  let k := Nat.log2 m
  let y := m * 2 ^ refBits / 2 ^ k
  let v : Int := ((k : Int) + e) * 2 ^ 100 + log2Frac 100 y 0
  .num (decide (v < 0)) v.natAbs (-100)

/-- The argument of SIN and COS reduced (R63), in units of 2^-refBits, for a = m × 2^e. -/
def reduceRef (m : Nat) (e : Int) : Int :=
  if e < -61 then toRef m e
  else
    let a := m * 2 ^ (e + 61).toNat
    let q := a / twoPi61
    let r := a % twoPi61
    let n := if twoPi61 < 2 * r ∨ (2 * r = twoPi61 ∧ q % 2 = 1) then q + 1 else q
    toRef ((a : Int) - n * twoPi61) (-61)

/-- F32 codes in the order of their values. -/
def toOrd (c : Nat) : Int := if f32.negBit c then -(f32.mag c : Int) else f32.mag c

/-- The F32 code of a place in that order. -/
def ofOrd (n : Int) : Nat := if n < 0 then f32.signed true n.natAbs else n.toNat

/-- The places of the F32 values in [lo, hi]. -/
def between (lo hi : Exact) : Int × Int := (toOrd (f32.pack .rup false 0 lo), toOrd (f32.pack .rdn false 0 hi))

/-- The places within `k` ulps of an exact result (R61); an infinity is the value ±2^128. The ulp of a result that is a power of two,
which two gaps meet, is the larger gap, the one away from zero: DESIGN CHOICE (log entry 12), safe. -/
def withinUlps (k : Nat) (x : Exact) : Int × Int :=
  match x with
  | .num _ m e =>
    let d : Exact := .num false k (f32.quantum m e)
    let p := between (x.sub .rne d) (x.add .rne d)
    let huge : Exact := .num false 1 128
    (if (x.sub .rne d).le huge.neg then toOrd (f32.signed true f32.infMag) else p.1,
     if huge.le (x.add .rne d) then f32.infMag else p.2)
  | _ => (0, 0)

/-- The places within 2^-b of an exact result (R61, R63). -/
def withinAbs (b : Nat) (x : Exact) : Int × Int :=
  between (x.sub .rne (.num false 1 (-(b : Int)))) (x.add .rne (.num false 1 (-(b : Int))))

/-- One of the places allowed: `r` picks it. -/
def pickPlace (r : Nat) (p : Int × Int) : Int :=
  if p.2 ≤ p.1 then p.1 else p.1 + (r % (p.2 - p.1 + 1).toNat : Nat)

/-- The places of an interval clipped to another. -/
def clip (lo hi : Int) (p : Int × Int) : Int × Int := (max lo (min hi p.1), max lo (min hi p.2))

/-- What bounds a function on an interval of magnitude codes where it is monotone (R64): the places allowed at a code, the
draw made at a code, whether the function rises with the code, and its exact value where the bound is one in ulps. -/
structure Branch where
  allowed : Nat → Int × Int
  draw : Nat → Nat
  up : Bool
  exact : Option (Nat → Exact) := none

/-- The magnitude of an exact value lies below 2^n. -/
def Exact.belowPow (x : Exact) (n : Int) : Bool :=
  match x with
  | .num _ m e => (Exact.num false m e).lt (.num false 1 n)
  | _ => false

/-- The code nearest to `near` at which a function that is below 2^n at `far`, and not at `near`, is below it. -/
def lastBelow (f : Nat → Exact) (n : Int) : Nat → Nat → Nat → Nat
  | 0, far, _ => far
  | k + 1, far, near =>
    let m := (far + near) / 2
    if m = far ∨ m = near then far
    else if (f m).belowPow n then lastBelow f n k m near else lastBelow f n k far m

/-- The places at a code, between two codes, that leave some place to every other code (R61, R64): the ulp is half as large beneath a
power of two, so that the last result beneath it bounds those above it too. -/
def Branch.bounds (b : Branch) (lo hi c : Nat) : Int × Int :=
  let p := b.allowed c
  match b.exact with
  | none => p
  | some f =>
    match f c with
    | .num neg m e =>
      let n := (Nat.log2 m : Int) + e
      let far := if neg == b.up then hi else lo
      if decide ((if neg then p.2 else p.1).natAbs < f32.pack .rne false 0 (.num false 1 n)) && (f far).belowPow n then
        let q := b.allowed (lastBelow f n 32 far c)
        if neg then (p.1, min p.2 q.2) else (max p.1 q.1, p.2)
      else p
    | _ => p

/-- The place drawn at a code between two codes whose places are drawn. -/
def Branch.pick (b : Branch) (lo hi c : Nat) (fl fh : Int) : Int :=
  pickPlace (b.draw c) (clip (min fl fh) (max fl fh) (b.bounds lo hi c))

/-- A branch whose bound is `k` ulps. -/
def ulpBranch (k : Nat) (draw : Nat → Nat) (up : Bool) (f : Nat → Exact) : Branch :=
  { allowed := fun c => withinUlps k (f c), draw := draw, up := up, exact := some f }

/-- A branch with its places held between two. -/
def Branch.within (b : Branch) (lo hi : Int) : Branch := { b with allowed := fun c => clip lo hi (b.allowed c) }

/-- The place at code `a` between codes `lo` and `hi` whose places are drawn: the midpoint is drawn between them, then the half
that holds `a` is searched. Every monotone choice within the bounds is some outcome of the draws, and every outcome is
monotone (R64). -/
def Branch.search (b : Branch) (a : Nat) : Nat → Nat → Nat → Int → Int → Int
  | 0, _, _, fl, _ => fl
  | n + 1, lo, hi, fl, fh =>
    if a = hi then fh else if a = lo then fl else if fl = fh then fl
    else
      let m := (lo + hi) / 2
      let fm := b.pick lo hi m fl fh
      if a ≤ m then b.search a n lo m fl fm else b.search a n m hi fm fh

/-- The F32 code with a place that a branch draws at code `a`, between two codes with places given. -/
def Branch.between (b : Branch) (a lo hi : Nat) (fl fh : Int) : Nat := ofOrd (b.search a 33 lo hi fl fh)

/-- F32 1.0. -/
def one32 : Nat := 0x3F800000

/-- F32 +∞. -/
def inf32 : Nat := 0x7F800000

/-- F32 NaN. -/
def nan32 : Nat := 0x7FC00000

/-- F32 −a, sign bit flipped. -/
def flip32 (a : Nat) : Nat := f32.signed (!f32.negBit a) (f32.mag a)

/-- The special functions (R61). -/
inductive SpecialFn where
  | rcp | rsq | ex2 | lg2 | sin | cos | tanh | sigm
deriving DecidableEq, Repr

/-- A function's number in `Config.special`. -/
def SpecialFn.num : SpecialFn → Nat
  | .rcp => 0 | .rsq => 1 | .ex2 => 2 | .lg2 => 3 | .sin => 4 | .cos => 5 | .tanh => 6 | .sigm => 7

/-- The exact value of a positive F32 code, or of its negative. -/
def valueOf (neg : Bool) (c : Nat) : Exact := f32.value (f32.signed neg c)

/-- RCP of an F32 code: from ±∞ to ±0 as the magnitude grows. -/
def rcp32 (draw : Nat → Nat) (a : Nat) : Nat :=
  let neg := f32.negBit a
  if f32.isZero a then f32.signed neg inf32
  else if f32.isInf a then f32.signed neg 0
  else
    let b := ulpBranch 1 (fun c => draw (f32.signed neg c)) neg fun c => Exact.one.div (valueOf neg c)
    b.between (f32.mag a) 0 inf32 (toOrd (f32.signed neg inf32)) 0

/-- RSQ: from +∞ to +0. -/
def rsq32 (draw : Nat → Nat) (a : Nat) : Nat :=
  if f32.isZero a then f32.signed (f32.negBit a) inf32
  else if f32.negBit a then nan32
  else if f32.isInf a then 0
  else
    let b := ulpBranch 1 draw false fun c => Exact.one.div (valueOf false c).sqrt
    b.between a 0 inf32 inf32 0

/-- The F32 code of a natural number. -/
def natCode (n : Nat) : Nat := ne32 (Exact.ofInt n)

/-- The F32 code of 2^n. -/
def pow2Code (n : Int) : Nat := ne32 (.num false 1 n)

/-- 2^x of a code with a sign. -/
def ex2Exact (neg : Bool) (c : Nat) : Exact :=
  match valueOf neg c with
  | .num n m e => exp2Ref (toRef (if n then -(m : Int) else m) e)
  | _ => Exact.zero

/-- EX2: exact at the integers whose result is normal, monotone between them and below them. -/
def ex2of32 (draw : Nat → Nat) (a : Nat) : Nat :=
  let neg := f32.negBit a
  let x := f32.value a
  if f32.isInf a then (if neg then 0 else inf32)
  else if (Exact.ofInt 128).le x then inf32
  else if x.lt (Exact.ofInt (-149)) then 0
  else
    let c := f32.mag a
    -- not below the +0 of the arguments beneath −149 (R62, R64)
    let b := (ulpBranch 2 (fun m => draw (f32.signed neg m)) (!neg) (ex2Exact neg)).within 0 inf32
    let n := (valueOf false c).floor.toNat
    if neg && decide (126 ≤ n) then
      let last := natCode 149
      b.between c (natCode 126) last (pow2Code (-126)) (b.pick (natCode 126) last last (pow2Code (-126)) 0)
    else
      let place := fun (k : Nat) => if !neg && k == 128 then inf32 else pow2Code (if neg then -(k : Int) else k)
      b.between c (natCode n) (natCode (n + 1)) (place n) (place (n + 1))

/-- The exponent of the largest power of two at or below a positive code. -/
def exponentOf (c : Nat) : Int :=
  match f32.value c with
  | .num _ m e => (Nat.log2 m : Int) + e
  | _ => 128

/-- LG2: exact at the powers of two, monotone between them. -/
def lg2of32 (draw : Nat → Nat) (a : Nat) : Nat :=
  if f32.isZero a then f32.signed true inf32
  else if f32.negBit a then nan32
  else if f32.isInf a then inf32
  else
    let b := ulpBranch 2 draw true fun c => match f32.value c with | .num _ m e => log2Ref m e | _ => Exact.zero
    let n := exponentOf a
    b.between a (pow2Code n) (pow2Code (n + 1)) (toOrd (ne32 (Exact.ofInt n)))
      (if n = 127 then inf32 else toOrd (ne32 (Exact.ofInt (n + 1))))

/-- The bound on SIN and COS: 2^-22 for |a| ≤ π, 2^-21 to 2^20, none beyond (R61, R63). That the error is measured from the function
at a′, on which R63 has it evaluated, is a DESIGN CHOICE (log entry 12), unsafe. The clip to [−1, 1], which R63 states beyond 2^20,
holds of every argument here: DESIGN CHOICE (log entry 13), unsafe. -/
def trigPlaces (m : Nat) (e : Int) (x : Int) : Int × Int :=
  let v : Exact := .num (decide (x < 0)) x.natAbs (-(refBits : Int))
  let mag : Exact := .num false m e
  let p := if mag.le (.num false twoPi61 (-62)) then withinAbs 22 v
    else if mag.le (.num false 1 20) then withinAbs 21 v
    else (-(one32 : Int), (one32 : Int))
  clip (-(one32 : Int)) one32 p

/-- The code of the largest F32 value at or below π. -/
def piCode : Nat := 0x40490FDA

/-- The code of 2^20. -/
def millionCode : Nat := 0x49800000

/-- SIN or COS of a magnitude that is not zero: on the half period around it where the function is monotone (R64), with the
places at the ends of a bound's range drawn first. -/
def trig32 (cosine : Bool) (draw : Nat → Nat) (c : Nat) : Nat :=
  let allowed := fun (k : Nat) =>
    if k = 0 then (if cosine then ((one32 : Int), (one32 : Int)) else (0, 0))
    else
      match f32.value k with
      | .num _ m e => trigPlaces m e (if cosine then cosRef (reduceRef m e) else sinRef (reduceRef m e))
      | _ => (0, 0)
  -- the argument and the turning points in units of a quarter period's 2^-63
  let units := match f32.value c with
    | .num _ m e => (Exact.num false m (e + 63)).floor.toNat
    | _ => 0
  let shift := if cosine then 0 else twoPi61
  let j := (units + shift) / (2 * twoPi61)
  let low := 2 * j * twoPi61 - shift
  let high := 2 * (j + 1) * twoPi61 - shift
  let lo := f32.pack .rup false 0 (.num false low (-63))
  let hi := min (f32.pack .rdn false 0 (.num false high (-63))) (inf32 - 1)
  let b : Branch := { allowed := allowed, draw := draw, up := if cosine then j % 2 == 1 else j % 2 == 0 }
  let top : Int := if b.up then one32 else -(one32 : Int)
  let node := if lo ≤ piCode ∧ piCode ≤ hi then piCode else if lo ≤ millionCode ∧ millionCode ≤ hi then millionCode else lo
  let fn := b.pick lo hi node (-top) top
  if c ≤ node then b.between c lo node (b.pick lo hi lo (-top) fn) fn
  else b.between c node hi fn (b.pick lo hi hi fn top)

/-- SIN, exactly odd. -/
def sin32 (draw : Nat → Nat) (a : Nat) : Nat :=
  if f32.isZero a then a
  else if f32.isInf a then nan32
  else
    let c := trig32 false draw (f32.mag a)
    if f32.negBit a then flip32 c else c

/-- COS, exactly even. -/
def cos32 (draw : Nat → Nat) (a : Nat) : Nat :=
  if f32.isZero a then one32
  else if f32.isInf a then nan32
  else trig32 true draw (f32.mag a)

/-- tanh of a magnitude. Beneath 2^-14 it lies less than a²/3 of its argument under it, and no bound tells it from a value closer
still. -/
def tanhExact (c : Nat) : Exact :=
  match f32.value c with
  | .num _ m e =>
    if m = 0 then Exact.zero
    else if (f32.value c).belowPow (-14) then .num false (m * 2 ^ 40 - 1) (e - 40)
    else
      let ex := expERef (toRef (-(2 * m : Int)) e)
      (Exact.one.sub .rne ex).div (Exact.one.add .rne ex)
  | _ => Exact.one

/-- TANH, exactly odd, within [−1, 1]. -/
def tanh32 (draw : Nat → Nat) (a : Nat) : Nat :=
  let c := f32.mag a
  let neg := f32.negBit a
  if f32.isZero a then a
  else if natCode 9 ≤ c then f32.signed neg one32
  else
    let b := (ulpBranch 2 draw true tanhExact).within 0 one32
    let c := b.between c 0 (natCode 9) 0 one32
    if neg then flip32 c else c

/-- 1/(1 + e^-a) of a code with a sign. -/
def sigmExact (neg : Bool) (c : Nat) : Exact :=
  match f32.value c with
  | .num _ m e =>
    -- below −200 the result rounds to the values beside zero whatever the exponent
    let ex := expERef (max (toRef (-(m : Int)) e) (-(200 * 2 ^ refBits)))
    (if neg then ex else Exact.one).div (Exact.one.add .rne ex)
  | _ => Exact.zero

/-- F32 0.5. -/
def half32 : Nat := 0x3F000000

/-- SIGM, within [0, 1]: 0.5 at zero, 1 from 17 on. -/
def sigm32 (draw : Nat → Nat) (a : Nat) : Nat :=
  let c := f32.mag a
  let neg := f32.negBit a
  if f32.isZero a then half32
  else if f32.isInf a then (if neg then 0 else one32)
  else if !neg && natCode 17 ≤ c then one32
  else
    let b := (ulpBranch 2 (fun m => draw (f32.signed neg m)) (!neg) (sigmExact neg)).within 0 one32
    if neg then b.between c 0 inf32 half32 0 else b.between c 0 (natCode 17) half32 one32

/-- A special function of an F32 code (R61 to R64). -/
def SpecialFn.apply (fn : SpecialFn) (a : Nat) : Nat :=
  if f32.isNan a then nan32
  else
    match fn with
    | .rcp => rcp32 (Config.special fn.num) a
    | .rsq => rsq32 (Config.special fn.num) a
    | .ex2 => ex2of32 (Config.special fn.num) a
    | .lg2 => lg2of32 (Config.special fn.num) a
    | .sin => sin32 (Config.special fn.num) a
    | .cos => cos32 (Config.special fn.num) a
    | .tanh => tanh32 (Config.special fn.num) a
    | .sigm => sigm32 (Config.special fn.num) a

end Sys2Proof.Machine
end

