-- ==== Sys2Proof/Machine/Flags.lean ====
section
/-!
DEFINITION. Float arithmetic on one element with its tangent planes and the TFLAGS bits it sets (R44, R52, R55, R70 to
R74, R158, R163).
-/
namespace Sys2Proof.Machine

/-- What governs the arithmetic of one element: its format, MR's RM, SAT and FTZ, whether planes are carried (TE = 1 and
D > 0), and Rnd16 by column (R51). -/
structure Fenv where
  F : Format
  rm : Rm
  sat : Bool
  ftz : Bool
  te : Bool
  rnd : Nat → Nat

/-- An operand: its code and the codes of its planes; none where planes are not carried. -/
structure Operand where
  val : Nat
  ds : List Nat
deriving DecidableEq, Repr

/-- A result: code, planes and flags. -/
structure Fres where
  val : Nat
  ds : List Nat
  flags : BitVec 3
deriving DecidableEq, Repr

/-- A code as the instruction reads it (R44). -/
def Fenv.read (e : Fenv) (c : Nat) : Nat := if e.ftz then e.F.flush c else c

/-- The value of a code as read. -/
def Fenv.value (e : Fenv) (c : Nat) : Exact := e.F.value (e.read c)

/-- A rounded result as written (R44, R50, R53). -/
def Fenv.write (e : Fenv) (x : Exact) : Nat := e.read (e.F.pack e.rm e.sat (e.rnd 0) x)

/-- SAT changes the value (R74). -/
def Fenv.satChanges (e : Fenv) (x : Exact) : Bool :=
  e.sat && e.F.pack e.rm true (e.rnd 0) x != e.F.pack e.rm false (e.rnd 0) x

/-- A rounding step of plane k: under RM, never saturated (R70, R74). A plane that is exactly zero is written +0 (R71); one that
rounds to a zero or that FTZ flushes keeps its sign (R44, R49). That the first of these two is no exact zero of R71 is DEDUCED
(log entry 13), unsafe. -/
def Fenv.plane (e : Fenv) (k : Nat) (x : Exact) : Nat :=
  if x.isZero then 0 else e.read (e.F.pack e.rm false (e.rnd (2 + 2 * k)) x)

/-- A plane that is ±∞ or NaN sets TZ (R73). -/
def Fenv.bad (e : Fenv) (c : Nat) : Bool := e.F.isNan c || e.F.isInf c

/-- A product with a plane factor: strong zero (R71). -/
def planeMul (p x : Exact) : Exact := if p.isZero then Exact.zero else p.mul x

/-- A word's planes as an instruction passes them on: as read, and a zero as +0 (R44, R71, R74). -/
def Fenv.keptPlanes (e : Fenv) (ds : List Nat) : List Nat :=
  (List.range ds.length).map fun k => e.plane k (e.value (ds.getD k 0))

/-- Plane k of an operand as a value. -/
def Fenv.dOf (e : Fenv) (o : Operand) (k : Nat) : Exact := e.value (o.ds.getD k 0)

/-- A result from its exact value: code, planes unless SAT changed the value, and flags (R12, R70 to R74). -/
def Fenv.result (e : Fenv) (n : Nat) (x : Exact) (flags : BitVec 3) (p : Nat → Nat) : Fres :=
  if !e.te || e.satChanges x then { val := e.write x, ds := List.replicate n 0, flags := 0 }
  else
    let ds := (List.range n).map p
    { val := e.write x, ds := ds, flags := if ds.any e.bad then flags ||| flagTZ else flags }

/-- FADD and FSUB (R72). -/
def Fenv.add (e : Fenv) (minus : Bool) (n : Nat) (a b : Operand) : Fres :=
  let f := fun (x y : Exact) => if minus then x.sub e.rm y else x.add e.rm y
  e.result n (f (e.value a.val) (e.value b.val)) 0 fun k => e.plane k (f (e.dOf a k) (e.dOf b k))

/-- FMUL (R72). -/
def Fenv.mul (e : Fenv) (n : Nat) (a b : Operand) : Fres :=
  let x := e.value a.val
  let y := e.value b.val
  e.result n (x.mul y) 0 fun k =>
    e.plane k ((planeMul (e.dOf a k) y).add e.rm (e.F.value (e.plane k (planeMul (e.dOf b k) x))))

/-- FFMA: a × b + c (R72). -/
def Fenv.fma (e : Fenv) (n : Nat) (a b c : Operand) : Fres :=
  let x := e.value a.val
  let y := e.value b.val
  e.result n ((x.mul y).add e.rm (e.value c.val)) 0 fun k =>
    let inner := e.plane k ((planeMul (e.dOf b k) x).add e.rm (e.dOf c k))
    e.plane k ((planeMul (e.dOf a k) y).add e.rm (e.F.value inner))

/-- FMIN and FMAX (R55, R72). -/
def Fenv.minMax (e : Fenv) (wantMax : Bool) (n : Nat) (a b : Operand) : Fres :=
  let x := e.read a.val
  let y := e.read b.val
  let pick := e.F.choose wantMax x y
  e.result n (e.F.value (e.F.minMax wantMax x y)) (if pick.2 then flagTK else 0) fun k =>
    e.plane k (e.dOf (if pick.1 then b else a) k)

/-- FABS (R72): a NaN's plane follows its sign bit. -/
def Fenv.abs (e : Fenv) (n : Nat) (a : Operand) : Fres :=
  let c := e.read a.val
  let x := e.F.value c
  let mag := if x.isNeg then x.neg else x
  e.result n mag (if e.F.isZero c then flagTK else 0) fun k =>
    if e.F.isZero c then 0
    else e.plane k (if e.F.negBit a.val then (e.dOf a k).neg else e.dOf a k)

/-- FNEG (R72). -/
def Fenv.negate (e : Fenv) (n : Nat) (a : Operand) : Fres :=
  e.result n (e.value a.val).neg 0 fun k => e.plane k (e.dOf a k).neg

/-- FRINT (R72, R158). -/
def Fenv.rint (e : Fenv) (n : Nat) (a : Operand) : Fres :=
  let x := e.value a.val
  e.result n (x.integral e.rm (e.rnd 0)) (if x.isIntegral then flagTK else 0) fun _ => 0

/-- FSAT (R72, R158). -/
def Fenv.unit (e : Fenv) (n : Nat) (a : Operand) : Fres :=
  let x := e.value a.val
  let inside := Exact.zero.lt x && x.lt Exact.one
  let kink := x.cmp Exact.zero == some .eq || x.cmp Exact.one == some .eq
  e.result n (e.F.value (e.F.unit (e.read a.val))) (if kink then flagTK else 0) fun k =>
    if inside then e.plane k (e.dOf a k) else 0

/-- The F32 code of an element's value, exactly. -/
def Fenv.code32 (e : Fenv) (c : Nat) : Nat := ne32 (e.value c)

/-- The factor g of R72, in F32 under RNE, from the operand and the rounded result. FTZ acts on the planes (R74), not on the
steps of g: DESIGN CHOICE (log entry 13), unsafe. -/
def tangentFactor (fn : Option SpecialFn) (a res : Nat) : Nat :=
  match fn with
  | none => if f32.isZero a then f32.infMag else div32 0x3F000000 res
  | some .rcp => neg32 (mul32 res res)
  | some .rsq => mul32 0xBF000000 (mul32 (mul32 res res) res)
  | some .ex2 => mul32 0x3F317218 res
  | some .lg2 => div32 0x3FB8AA3B a
  | some .sin => SpecialFn.cos.apply a
  | some .cos => neg32 (SpecialFn.sin.apply a)
  | some .tanh => sub32 0x3F800000 (mul32 res res)
  | some .sigm => mul32 res (sub32 0x3F800000 res)

/-- The planes of a unary function with factor g (R70 to R72). -/
def Fenv.factorPlane (e : Fenv) (fn : Option SpecialFn) (a : Operand) (x : Exact) (k : Nat) : Nat :=
  let g := tangentFactor fn (e.code32 a.val) (ne32 (e.F.value (e.write x)))
  e.plane k (planeMul (e.dOf a k) (f32.value g))

/-- SQRT: the F32 root correctly rounded under RM (R61, R62), rounded under RM again to the element's format (R65, R72). -/
def Fenv.root (e : Fenv) (n : Nat) (a : Operand) : Fres :=
  let x := f32.value (f32.pack e.rm false (e.rnd 0) (e.value a.val).sqrt)
  e.result n x 0 (e.factorPlane none a x)

/-- A special function: the F32 result, rounded to the element's format under RNE (R61 to R65, R72). The planes round under
RM. -/
def Fenv.function (e : Fenv) (fn : SpecialFn) (n : Nat) (a : Operand) : Fres :=
  let x := f32.value (fn.apply (e.code32 a.val))
  let v : Fenv := { e with rm := .rne }
  if !e.te || v.satChanges x then { val := v.write x, ds := List.replicate n 0, flags := 0 }
  else
    let g := tangentFactor (some fn) (e.code32 a.val) (ne32 (e.F.value (v.write x)))
    let ds := (List.range n).map fun k => e.plane k (planeMul (e.dOf a k) (f32.value g))
    { val := v.write x, ds := ds, flags := if ds.any e.bad then flagTZ else 0 }

/-- An ordered comparison (R81, R159). -/
def Fenv.compare (e : Fenv) (cond : Nat) (a b : Nat) : Bool :=
  match cond, (e.value a).cmp (e.value b) with
  | 0, r => r == some .eq
  | 1, r => r != some .eq
  | 2, r => r == some .lt
  | 3, r => r == some .lt || r == some .eq
  | 4, r => r == some .gt
  | 5, r => r == some .gt || r == some .eq
  | 6, r => r.isSome
  | _, r => r.isNone

/-- The class code of FCLASS (R160). -/
def Fenv.classOf (e : Fenv) (c : Nat) : Nat :=
  let x := e.read c
  let bit := fun (neg pos : Nat) => if e.F.negBit x then 2 ^ neg else 2 ^ pos
  if e.F.isNan x then 2 ^ 8
  else if e.F.isInf x then bit 0 7
  else if e.F.isZero x then bit 3 4
  else if e.F.isSubnormal x then bit 2 5
  else bit 1 6

end Sys2Proof.Machine
end

