-- ==== Sys2Proof/Machine/Uniform.lean ====
section
/-!
DEFINITION. Special registers, the clock, the lane-to-uniform moves and the scalar instructions (R131 to R141).
-/
namespace Sys2Proof.Machine

/-- A Kerf operation of the team is in progress (R32). -/
def State.kerfBusy (s : State) : Bool :=
  match s.myTeam with
  | some t => s.ops.any fun o => o.path == some .kf && t.slots.contains o.gs && !o.complete
  | none => false

/-- The value of a special register that is not per lane (R32). -/
def State.special (s : State) (index : Nat) : Word :=
  let core := coreOf s.me.gs
  match index with
  | 1 => BitVec.ofNat 32 s.me.gid
  | 2 => s.me.teamId
  | 3 => BitVec.ofNat 32 s.me.role
  | 4 => BitVec.ofNat 32 core
  | 5 => BitVec.ofNat 32 (core / 4)
  | 6 => s.me.dieId
  | 7 => s.me.gridId
  | 8 => BitVec.ofNat 32 s.d
  | 10 =>
    let n := (s.myTeam.map (·.tiles.length)).getD 0
    BitVec.ofNat 32 (2 ^ n - 1 + (if s.kerfBusy then 2 ^ 16 else 0) + s.packetField 0x24 4 / 2 ^ 15 % 4 * 2 ^ 17)
  | 11 => BitVec.ofNat 32 (s.me.splitRecords + 16 * s.me.overDepth)
  | 12 => BitVec.ofNat 32 (s.me.missMany + 65536 * s.me.missOvf)
  | _ => 0

/-- SPRR (R131): per-lane registers go to the active lanes' value words, and planes are left (R102). R22 says that SPRR reads MR, and
R32 and R131 give no index for it, so that no SPRR of the model reads it: DESIGN CHOICE (log entry 51), unsafe. -/
def execSprr (d imm : Nat) (s : State) : Host.Outcome State Fault Refusal :=
  simple (.sprr d imm) (fun s =>
    match imm with
    | 0 => s.wrVs ((lanesOf s.active).map fun l => (vkey d 0 l, BitVec.ofNat 32 l))
    | 9 => s.wrVs ((lanesOf s.active).map fun l => (vkey d 0 l, (s.flagsOf s.me l).setWidth 32))
    | _ => s.wrS d (s.special imm)) s

/-- SPRW (R33, R132): what it gives to TFLAGS stands over the flags of the group's operations in progress. -/
def execSprw (a imm : Nat) (s : State) : Host.Outcome State Fault Refusal :=
  simple (.sprw a imm) (fun s =>
    match imm with
    | 9 => (s.flagsGiven s.me.gs s.active).modMe fun g =>
        { g with tflags := ssets 0 g.tflags ((lanesOf s.active).map fun l => (l, (s.srcV a l).setWidth 3)) }
    | _ => s.modMe fun g => { g with missMany := 0, missOvf := 0 }) s

/-- CLKR (R133). -/
def execClkr (d : Nat) (s : State) : Host.Outcome State Fault Refusal :=
  simple (.clkr d) (fun s => s.wrS64 d (BitVec.ofNat 64 (s.clock s.me.gs))) s

/-- UFIRST (R135). -/
def execUfirst (d a : Nat) (s : State) : Host.Outcome State Fault Refusal :=
  simple (.ufirst d a) (fun s => s.wrS d (if s.active = 0 then 0 else s.srcV a (firstLane s.active))) s

/-- Two active lanes hold different words (R136). -/
def State.nonuniform (s : State) (a : Nat) : Bool :=
  (lanesOf s.active).any fun l => s.srcV a l != s.srcV a (firstLane s.active)

/-- UCHK (R136). -/
def execUchk (a : Nat) (s : State) : Host.Outcome State Fault Refusal :=
  issue (.uchk a) (fun s =>
    if s.nonuniform a then .trap (Trap.plain causeNonuniform 0 s.active) else .done s.advance) s

/-- ULANE (R137). -/
def execUlane (d a imm : Nat) (s : State) : Host.Outcome State Fault Refusal :=
  simple (.ulane d a imm) (fun s => s.wrS d (s.srcV a imm)) s

/-! Scalar results (R138). -/

/-- A scalar instruction of two sources. -/
def scalar2 (i : Instr) (d a b : Nat) (f : Word → Word → Word) (s : State) : Host.Outcome State Fault Refusal :=
  simple i (fun s => s.wrS d (f (s.rdS a) (s.rdS b))) s

/-- A left shift; 0 from 32 on. -/
def shiftLeft (x y : Word) : Word := if 32 ≤ y.toNat then 0 else x <<< y.toNat
/-- A right shift with zero fill. -/
def shiftRight (x y : Word) : Word := x >>> y.toNat
/-- A right shift with sign fill. -/
def shiftArith (x y : Word) : Word := x.sshiftRight y.toNat

/-- Bits 63:32 of the exact product, signed or unsigned. -/
def mulHigh (unsigned : Bool) (x y : Word) : Word :=
  if unsigned then BitVec.ofNat 32 (x.toNat * y.toNat / 2 ^ 32) else BitVec.ofInt 32 (x.toInt * y.toInt / 2 ^ 32)

/-- The lesser and the greater, signed or unsigned. -/
def lesser (unsigned : Bool) (x y : Word) : Word := if (if unsigned then y.ult x else y.slt x) then y else x
def greater (unsigned : Bool) (x y : Word) : Word := if (if unsigned then x.ult y else x.slt y) then y else x

/-- SADD. -/
def execSadd (d a b : Nat) (s : State) : Host.Outcome State Fault Refusal := scalar2 (.sadd d a b) d a b (· + ·) s
/-- SSUB. -/
def execSsub (d a b : Nat) (s : State) : Host.Outcome State Fault Refusal := scalar2 (.ssub d a b) d a b (· - ·) s
/-- SMUL. -/
def execSmul (d a b : Nat) (s : State) : Host.Outcome State Fault Refusal := scalar2 (.smul d a b) d a b (· * ·) s
/-- SAND. -/
def execSand (d a b : Nat) (s : State) : Host.Outcome State Fault Refusal := scalar2 (.sand d a b) d a b (· &&& ·) s
/-- SOR. -/
def execSor (d a b : Nat) (s : State) : Host.Outcome State Fault Refusal := scalar2 (.sor d a b) d a b (· ||| ·) s
/-- SXOR. -/
def execSxor (d a b : Nat) (s : State) : Host.Outcome State Fault Refusal := scalar2 (.sxor d a b) d a b (· ^^^ ·) s
/-- SSHL. -/
def execSshl (d a b : Nat) (s : State) : Host.Outcome State Fault Refusal := scalar2 (.sshl d a b) d a b shiftLeft s
/-- SSHR. -/
def execSshr (d a b : Nat) (s : State) : Host.Outcome State Fault Refusal := scalar2 (.sshr d a b) d a b shiftRight s
/-- SSAR. -/
def execSsar (d a b : Nat) (s : State) : Host.Outcome State Fault Refusal := scalar2 (.ssar d a b) d a b shiftArith s
/-- SMOV. -/
def execSmov (d a : Nat) (s : State) : Host.Outcome State Fault Refusal := simple (.smov d a) (fun s => s.wrS d (s.rdS a)) s
/-- SMULH. -/
def execSmulh (d a b f : Nat) (s : State) : Host.Outcome State Fault Refusal :=
  scalar2 (.smulh d a b f) d a b (mulHigh (f == 1)) s
/-- SMIN. -/
def execSmin (d a b f : Nat) (s : State) : Host.Outcome State Fault Refusal :=
  scalar2 (.smin d a b f) d a b (lesser (f == 1)) s
/-- SMAX. -/
def execSmax (d a b f : Nat) (s : State) : Host.Outcome State Fault Refusal :=
  scalar2 (.smax d a b f) d a b (greater (f == 1)) s

/-- SCMP's condition (R81). -/
def scalarCond (f : Nat) (x y : Word) : Bool :=
  match f with
  | 0 => x == y
  | 1 => x != y
  | 2 => x.slt y
  | 3 => !y.slt x
  | 4 => y.slt x
  | 5 => !x.slt y
  | 6 => x.ult y
  | _ => !x.ult y

/-- SCMP (R139). -/
def execScmp (d a b f : Nat) (s : State) : Host.Outcome State Fault Refusal :=
  simple (.scmp d a b f) (fun s => s.wrQ d (scalarCond f (s.rdS a) (s.rdS b))) s

/-- A predicate operation (R82). -/
def predOp (f : Nat) (x y : Bool) : Bool :=
  match f with
  | 0 => x && y
  | 1 => x || y
  | 2 => x != y
  | 3 => x && !y
  | 4 => !x
  | 5 => x
  | 6 => !(x && y)
  | _ => !(x || y)

/-- QOP (R140). -/
def execQop (d a b f : Nat) (s : State) : Host.Outcome State Fault Refusal :=
  simple (.qop d a b f) (fun s => s.wrQ d (predOp f (s.rdQ a) (s.rdQ b))) s

/-- SMOVI (R141). -/
def execSmovi (d imm : Nat) (s : State) : Host.Outcome State Fault Refusal :=
  simple (.smovi d imm) (fun s => s.wrS d ((BitVec.ofNat 18 imm).signExtend 32)) s

/-- SMOVH (R141). -/
def execSmovh (d imm : Nat) (s : State) : Host.Outcome State Fault Refusal :=
  simple (.smovh d imm) (fun s => s.wrS d ((BitVec.ofNat 18 imm ++ (s.rdS d).setWidth 14 : BitVec 32))) s

end Sys2Proof.Machine
end

