-- ==== Sys2Proof/Machine/Operands.lean ====
section
/-!
DEFINITION. The operand forms of vector instructions: element types, the elements of a word, lanes that act, and the
result written to a destination with its planes and flags (R8, R11, R12, R16, R51, R143 to R146).
-/
namespace Sys2Proof.Machine

/-- The integer type under MR.ET: float types read as signed ones of their width (R144). -/
def etInt (et : Nat) : IntType := ⟨et == 0 || (decide (2 ≤ et) && decide (et ≤ 5)) || et == 7, etWidth et⟩

/-- A word of its elements. -/
def joinElems (w : Nat) (es : List Nat) : Word :=
  BitVec.ofNat 32 (((List.range es.length).map fun j => es.getD j 0 % 2 ^ w * 2 ^ (w * j)).foldl (· + ·) 0)

/-- A lane's global id (R51). -/
def State.globalId (s : State) (lane : Nat) : Nat := ((s.me.teamId.toNat * 32 + s.me.gid) * 32 + lane) % 2 ^ 32

/-- Rnd16 of the issuing group for a row and column (R24, R51): used under RM = 5 alone. DEDUCED (log entry 14), unsafe where a
claim computes the draw. -/
def State.rnd16 (s : State) (row col : Nat) : Nat :=
  if mrRm s.mr = 5 then coordHash (s.clock s.me.gs) row col % 65536 else 0

/-- Planes are carried: TE = 1 and D > 0 (R12). -/
def State.carries (s : State) : Bool := mrTe s.mr && s.d != 0

/-- The float environment of an element in a row (R51, R146). -/
def State.fenv (s : State) (F : Format) (row j : Nat) : Fenv :=
  { F := F, rm := Rm.ofCode (mrRm s.mr), sat := mrSat s.mr, ftz := mrFtz s.mr, te := s.carries
    rnd := fun col => s.rnd16 row (col + j) }

/-- Element j of a source field in a lane, with its planes where they are carried. -/
def State.operand (s : State) (w : Nat) (x lane j : Nat) : Operand :=
  { val := elem w j (s.srcV x lane)
    ds := if s.carries then (List.range s.d).map fun k => elem w j (s.srcP x k lane) else [] }

/-- The results of a lane's elements as words written to a register: value, planes, and the flags set. -/
def laneWords (d w r lane : Nat) (rs : List Fres) : List (Nat × Word) :=
  tangentWords d r lane (joinElems w (rs.map (·.val)))
    ((List.range d).map fun k => joinElems w (rs.map fun x => x.ds.getD k 0))

/-- The flags of a lane's elements together. -/
def laneFlags (rs : List Fres) : BitVec 3 := rs.foldl (fun f x => f ||| x.flags) 0

/-- A result written in every active lane: words and flags by lane. -/
def State.writeLanes (s : State) (words : Nat → List (Nat × Word)) (flags : Nat → BitVec 3) : State :=
  let ls := lanesOf s.active
  (s.wrVs (ls.flatMap words)).addFlags ((ls.map fun l => (l, flags l)).filter fun lf => lf.2 != 0)

/-- A float instruction on elements of MR.ET (R143, R158): `f` gives an element's result from its environment, lane and
index. -/
def State.floatLanes (s : State) (d : Nat) (f : Fenv → Nat → Nat → Fres) : State :=
  let et := mrEt s.mr
  let F := etFormat et
  let res := fun (l : Nat) => (List.range (etCount et)).map fun j => f (s.fenv F (s.globalId l) j) l j
  s.writeLanes (fun l => laneWords s.d (etWidth et) d l (res l)) (fun l => laneFlags (res l))

/-- An integer instruction on elements of MR.ET: the exact result, wrapped, or clamped where it obeys SAT (R54, R150). -/
def State.intLanes (s : State) (d : Nat) (clamps : Bool) (f : IntType → Nat → Nat → Int) : State :=
  let t := etInt (mrEt s.mr)
  let fin := fun (x : Int) => wrap t.width (if clamps && mrSat s.mr then t.clamp x else x)
  s.writeLanes
    (fun l => plainWords s.d d l (joinElems t.width ((List.range (32 / t.width)).map fun j => fin (f t l j)))) (fun _ => 0)

/-- A whole-word instruction: a word in each active lane, planes zero (R12, R144). -/
def State.wordLanes (s : State) (d : Nat) (f : Nat → Word) : State :=
  s.writeLanes (fun l => plainWords s.d d l (f l)) (fun _ => 0)

/-- The integer value of element j of a source field in a lane. -/
def State.intElem (s : State) (t : IntType) (x lane j : Nat) : Int := t.value (elem t.width j (s.srcV x lane))

/-- The code of element j, as an unsigned number. -/
def State.codeElem (s : State) (t : IntType) (x lane j : Nat) : Nat := elem t.width j (s.srcV x lane)

/-- The 10-bit immediate, sign-extended (R145). -/
def imm10 (imm : Nat) : Word := (BitVec.ofNat 10 imm).signExtend 32

/-- A lane predicate written in the active lanes (R20). -/
def State.predLanes (s : State) (p : Nat) (f : Nat → Bool) : State := s.wrP p s.active (maskBy f)

/-- The planes of a source field copied in a lane, word by word, or zero (R12, R72, R153). -/
def State.copyPlanes (s : State) (x lane : Nat) : List Word :=
  if s.carries then (List.range s.d).map fun k => s.srcP x k lane else []

/-- The flags of a copy of planes: TZ where one of their elements is ±∞ or NaN (R73). The elements are those of MR.ET, and an
integer type has none of these: DEDUCED (log entry 13), unsafe. -/
def State.copyFlags (s : State) (ps : List Word) : BitVec 3 :=
  if s.carries && ps.any (badPlane (mrEt s.mr)) then flagTZ else 0

/-- A word with its planes given to lanes of a register, with the flags of the copy. -/
def State.copyLanes (s : State) (d : Nat) (word : Nat → Word) (planes : Nat → List Word) : State :=
  s.writeLanes (fun l => tangentWords s.d d l (word l) (planes l)) (fun l => s.copyFlags (planes l))

end Sys2Proof.Machine
end

