-- ==== Sys2Proof/Machine/CrossLane.lean ====
section
/-!
DEFINITION. Cross-lane instructions and row statistics (R66 to R69, R172 to R179).
-/
namespace Sys2Proof.Machine

/-- The lane that SHFL reads (R173). -/
def shflLane (mode c lane : Nat) : Nat :=
  match mode with
  | 0 => c % 32
  | 1 => if c ≤ lane then lane - c else lane
  | 2 => if lane + c ≤ 31 then lane + c else lane
  | _ => lane ^^^ (c % 32)

/-- SHFL (R173, R73). -/
def execShfl (d a b f : Nat) (s : State) : Host.Outcome State Fault Refusal :=
  simple (.shfl d a b f) (fun s =>
    let from' := fun (l : Nat) => shflLane f (s.srcV b l).toNat l
    s.copyLanes d (fun l => s.srcV a (from' l)) (fun l => s.copyPlanes a (from' l))) s

/-- BALLOT (R174). -/
def execBallot (d a : Nat) (s : State) : Host.Outcome State Fault Refusal :=
  simple (.ballot d a) (fun s => s.wrS d (s.active &&& s.rdP a)) s

/-- EQMASK (R175). -/
def execEqmask (d a : Nat) (s : State) : Host.Outcome State Fault Refusal :=
  simple (.eqmask d a) (fun s =>
    s.wrS d (s.active &&& maskBy fun l => s.srcV a l == s.srcV a (firstLane s.active))) s

/-! ## Combinations over lanes -/

/-- The operation of a combination, with its rounding row: an operand of lower lanes first. -/
abbrev Combine := Nat → Fres → Fres → Fres

/-- The flags of a combination that stay with it: TK, from any node (R176). -/
def carryFlags (a b r : Fres) : Fres := { r with flags := (a.flags ||| b.flags ||| r.flags) &&& flagTK }

/-- Float add, min and max as combinations (R176, R178). SAT acts at each node or step, so that a NaN there becomes +0 and goes on,
where R176 says "at each node" of integers alone: DESIGN CHOICE (log entry 13), unsafe. -/
def floatCombine (s : State) (F : Format) (j n f : Nat) : Combine := fun row a b =>
  let e := s.fenv F (s.globalId row) j
  let x : Operand := { val := a.val, ds := a.ds }
  let y : Operand := { val := b.val, ds := b.ds }
  carryFlags a b
    (match f with
      | 0 => e.add false n x y
      | 1 => e.minMax false n x y
      | _ => e.minMax true n x y)

/-- Integer add, min and max, and the whole-word operations, as combinations (R176). -/
def intCombine (s : State) (t : IntType) (f : Nat) : Combine := fun _ a b =>
  let x := t.value a.val
  let y := t.value b.val
  let r := match f with
    | 0 => wrap t.width (if mrSat s.mr then t.clamp (x + y) else x + y)
    | 1 => wrap t.width (min x y)
    | 2 => wrap t.width (max x y)
    | 3 => a.val &&& b.val
    | 4 => a.val ||| b.val
    | _ => a.val ^^^ b.val
  { val := r, ds := [], flags := 0 }

/-- The tree of REDU over 2^n lane positions from `lo`: the lowest position of a node gives its row (R51, R176). -/
def treeOf (op : Combine) (leaf : Nat → Option Fres) : Nat → Nat → Option Fres
  | 0, lo => leaf lo
  | n + 1, lo =>
    match treeOf op leaf n lo, treeOf op leaf n (lo + 2 ^ n) with
    | some a, some b => some (op lo a b)
    | some a, none => some a
    | none, b => b

/-- A float word as written: canonical, saturated, flushed (R43, R44, R146), its planes those of the combination. -/
def writtenFloat (s : State) (F : Format) (j n : Nat) (x : Fres) : Fres :=
  let e := s.fenv F 0 j
  let r := e.result n (e.value x.val) x.flags fun k => x.ds.getD k 0
  r

/-- The combination, the leaf of a word's element, and the finish, of REDU and SCAN on element j: f 0 add, 1 min, 2 max, 3
and, 4 or, 5 xor; the last three act on whole words. -/
structure Combiner where
  width : Nat
  op : Nat → Combine
  leaf : Nat → Word → List Word → Fres
  done : Nat → Fres → Fres

/-- The combiner of an operation under MR.ET. -/
def State.combiner (s : State) (f : Nat) : Combiner :=
  let et := mrEt s.mr
  let w := if 3 ≤ f then 32 else etWidth et
  let leaf := fun (j : Nat) (x : Word) (ps : List Word) =>
    ({ val := elem w j x, ds := ps.map (elem w j), flags := 0 } : Fres)
  if etFloat et && decide (f < 3) then
    -- a leaf that no step changes is written with its planes as read (R71, R74)
    let kept := fun (j : Nat) (x : Word) (ps : List Word) =>
      { leaf j x ps with ds := (s.fenv (etFormat et) 0 j).keptPlanes (leaf j x ps).ds }
    { width := w, op := fun j => floatCombine s (etFormat et) j s.d f, leaf := kept
      done := fun j x => writtenFloat s (etFormat et) j s.d x }
  else
    { width := w, op := fun _ => intCombine s (if 3 ≤ f then ⟨false, 32⟩ else etInt et) f, leaf := leaf
      done := fun _ x => { x with ds := [], flags := 0 } }

/-- REDU (R176). -/
def execRedu (d a f : Nat) (s : State) : Host.Outcome State Fault Refusal :=
  simple (.redu d a f) (fun s =>
    let c := s.combiner f
    let m := s.active
    let rs := (List.range (32 / c.width)).map fun j =>
      match treeOf (c.op j) (fun l => if m.getLsbD l then some (c.leaf j (s.srcV a l) (s.copyPlanes a l)) else none) 5 0 with
      | some x => c.done j x
      | none => { val := 0, ds := [], flags := 0 }
    s.writeLanes (fun l => laneWords s.d c.width d l rs) (fun _ => laneFlags rs)) s

/-- The chain of SCAN over lanes, ascending: what each lane is given (R178). In an exclusive SCAN the TK of a step's tie goes to the lane
that is given the step's result, the next one, and that of the last step to none: DESIGN CHOICE (log entry 13), unsafe. -/
def scanChain (op : Combine) (excl : Bool) (leaf : Nat → Fres) : Fres → List Nat → List (Nat × Fres)
  | _, [] => []
  | acc, l :: ls =>
    let next := op l { acc with flags := 0 } (leaf l)
    (l, if excl then acc else next) :: scanChain op excl leaf next ls

/-- SCAN (R178): f bits 2:1 the operation, with 3 for or; bit 0 exclusive. -/
def execScan (d a b f : Nat) (s : State) : Host.Outcome State Fault Refusal :=
  simple (.scan d a b f) (fun s =>
    let c := s.combiner (if f / 2 = 3 then 4 else f / 2)
    let first := firstLane s.active
    let ls := lanesOf s.active
    let n := 32 / c.width
    let chains := (List.range n).map fun j =>
      scanChain (c.op j) (f % 2 == 1) (fun l => c.leaf j (s.srcV a l) (s.copyPlanes a l))
        (c.leaf j (s.srcV b first) (s.copyPlanes b first)) ls
    let at' := fun (l : Nat) => (List.range n).map fun j =>
      match lookup (chains.getD j []) l with
      | some x => c.done j x
      | none => { val := 0, ds := [], flags := 0 }
    s.writeLanes (fun l => laneWords s.d c.width d l (at' l)) (fun l => laneFlags (at' l))) s

/-- Of two lanes by value, whether the second is to be chosen over the first (R177). -/
def State.betterLane (s : State) (a : Nat) (wantMax : Bool) (l m : Nat) : Bool :=
  let et := mrEt s.mr
  let x := (s.srcV a l).toNat
  let y := (s.srcV a m).toNat
  if etFloat et then
    let e := s.fenv f32 0 0
    let pick := f32.choose wantMax (e.read x) (e.read y)
    pick.1
  else
    let t := etInt et
    if wantMax then decide (t.value x < t.value y) else decide (t.value y < t.value x)

/-- MINIDX (R177). -/
def execMinidx (d a f : Nat) (s : State) : Host.Outcome State Fault Refusal :=
  simple (.minidx d a f) (fun s =>
    let best := (lanesOf s.active).foldl (fun l m => if s.betterLane a (f == 1) l m then m else l) (firstLane s.active)
    s.wordLanes d fun _ => BitVec.ofNat 32 best) s

/-! ## Row statistics (R66 to R69, R179) -/

/-- A value with planes in the steps of the row statistics: values round RNE, planes under RM, TK kept (R69). -/
abbrev Dual := Fres

/-- The environment of the value steps (R66 to R68). -/
def Fenv.steps (e : Fenv) : Fenv := { e with rm := .rne, sat := false }

/-- A step: value under RNE, planes by a rule, the flags of its operands kept. -/
def Fenv.step (e : Fenv) (n : Nat) (x : Exact) (flags : BitVec 3) (p : Nat → Nat) : Dual :=
  { val := e.steps.write x, ds := if e.te then (List.range n).map p else [], flags := flags }

def Fenv.dv (e : Fenv) (o : Dual) : Exact := e.value o.val
def Fenv.dp (e : Fenv) (o : Dual) (k : Nat) : Exact := e.value (o.ds.getD k 0)

/-- A sum or difference. -/
def Fenv.stepAdd (e : Fenv) (minus : Bool) (n : Nat) (a b : Dual) : Dual :=
  let f := fun (rm : Rm) (x y : Exact) => if minus then x.sub rm y else x.add rm y
  e.step n (f .rne (e.dv a) (e.dv b)) (a.flags ||| b.flags) fun k => e.plane k (f e.rm (e.dp a k) (e.dp b k))

/-- A product. -/
def Fenv.stepMul (e : Fenv) (n : Nat) (a b : Dual) : Dual :=
  e.step n ((e.dv a).mul (e.dv b)) (a.flags ||| b.flags) fun k =>
    e.plane k ((planeMul (e.dp a k) (e.dv b)).add e.rm (e.value (e.plane k (planeMul (e.dp b k) (e.dv a)))))

/-- a × b + c in one rounding. -/
def Fenv.stepFma (e : Fenv) (n : Nat) (a b c : Dual) : Dual :=
  e.step n (((e.dv a).mul (e.dv b)).add .rne (e.dv c)) (a.flags ||| b.flags ||| c.flags) fun k =>
    let inner := e.plane k ((planeMul (e.dp b k) (e.dv a)).add e.rm (e.dp c k))
    e.plane k ((planeMul (e.dp a k) (e.dv b)).add e.rm (e.value inner))

/-- A quotient (R69). -/
def Fenv.stepDiv (e : Fenv) (n : Nat) (x y : Dual) : Dual :=
  let q := e.steps.write ((e.dv x).div (e.dv y))
  e.step n ((e.dv x).div (e.dv y)) (x.flags ||| y.flags) fun k =>
    let t := e.value (e.plane k ((planeMul (e.dp y k) (e.value q).neg).add e.rm (e.dp x k)))
    if t.isZero then 0 else e.plane k (t.div (e.dv y))

/-- EX2 in F32 (R61, R72). -/
def Fenv.stepEx2 (e : Fenv) (n : Nat) (a : Dual) : Dual :=
  let r := SpecialFn.ex2.apply (e.code32 a.val)
  let res := e.steps.write (f32.value r)
  e.step n (f32.value r) a.flags fun k =>
    e.plane k (planeMul (e.dp a k) (f32.value (tangentFactor (some .ex2) (e.code32 a.val) res)))

/-- Max (R69): the first operand at a tie, with TK. -/
def Fenv.stepMax (e : Fenv) (n : Nat) (a b : Dual) : Dual :=
  let pick := f32.choose true (e.read a.val) (e.read b.val)
  let o := if pick.1 then b else a
  e.step n (e.dv o) (a.flags ||| b.flags ||| (if pick.2 then flagTK else 0)) fun k => e.plane k (e.dp o k)

/-- Both are the infinity of one sign. -/
def sameInf (a b : Nat) : Bool := f32.isInf a && a == b

/-- Dif (R67, R69). -/
def Fenv.dif (e : Fenv) (n : Nat) (a m : Dual) : Dual :=
  if sameInf a.val m.val then e.step n Exact.zero m.flags (fun _ => 0) else e.stepAdd true n a m

/-- A constant: no planes, so that those of a constant result are written +0. The spec names no plane for the constant results
of WELF, SMXM and SMXN: DESIGN CHOICE (log entry 13), unsafe. -/
def constDual (c : Nat) : Dual := { val := c, ds := [], flags := 0 }

/-- A state that WELF gives exactly: its planes as read (R66, R71, R74). -/
def Fenv.kept (e : Fenv) (x : Dual) : Dual := { x with ds := e.keptPlanes x.ds }

/-- E(z) = e^z (R67). -/
def Fenv.expOf (e : Fenv) (n : Nat) (z : Dual) : Dual := e.stepEx2 n (e.stepMul n z (constDual 0x3FB8AA3B))

/-- WELF on one lane (R66). -/
def Fenv.welf (e : Fenv) (n : Nat) (na ua ma nb ub mb : Dual) : List Dual :=
  let ok := fun (c : Dual) => (e.dv c).isIntegral && !(e.dv c).lt Exact.zero
  if !ok na || !ok nb then [constDual f32.nan, constDual f32.nan, constDual f32.nan]
  else if f32.isZero (e.read nb.val) then [e.kept na, e.kept ua, e.kept ma]
  else if f32.isZero (e.read na.val) then [e.kept nb, e.kept ub, e.kept mb]
  else
    let cnt := e.stepAdd false n na nb
    let dl := e.stepAdd true n ub ua
    let w := e.stepDiv n nb cnt
    let mu := e.stepFma n dl w ua
    let m2 := e.stepFma n (e.stepMul n dl dl) (e.stepMul n na w) (e.stepAdd false n ma mb)
    [cnt, mu, m2]

/-- SMXM on one lane (R67). -/
def Fenv.smxm (e : Fenv) (n : Nat) (ma sa mb sb : Dual) : List Dual :=
  if f32.isNan ma.val || f32.isNan mb.val then [constDual f32.nan, constDual f32.nan]
  else
    let m := e.stepMax n ma mb
    -- the maximum's own TK is counted once, with m
    let m0 : Dual := { m with flags := 0 }
    let s := e.stepFma n sa (e.expOf n (e.dif n ma m0)) (e.stepMul n sb (e.expOf n (e.dif n mb m0)))
    [m, s]

/-- SMXN on one lane: y, and whether the row is empty (R68). -/
def Fenv.smxn (e : Fenv) (n : Nat) (x m s : Dual) : Dual × Bool :=
  if m.val = f32.signed true f32.infMag ∧ f32.isZero (e.read s.val) then (constDual 0, true)
  else if f32.isNan x.val || f32.isNan m.val || f32.isNan s.val then (constDual f32.nan, false)
  else (e.stepDiv n (e.expOf n (e.dif n x m)) s, false)

/-- A state word as written: SAT acts here alone (R74, R179). -/
def Fenv.finish (e : Fenv) (n : Nat) (x : Dual) : Fres :=
  ({ e with rm := .rne } : Fenv).result n (e.value x.val) x.flags fun k => x.ds.getD k 0

/-- The words of results in consecutive registers of a lane. -/
def groupWords (n d lane : Nat) (rs : List Fres) : List (Nat × Word) :=
  (List.range rs.length).flatMap fun j => laneWords n 32 (d + j) lane [rs.getD j (constDual 0)]

/-- A state word read as a dual. -/
def State.dual (s : State) (x lane : Nat) : Dual :=
  let o := s.operand 32 x lane 0
  { val := (s.fenv f32 0 0).read o.val, ds := o.ds, flags := 0 }

/-- A row-statistics instruction: its results by lane. -/
def State.statLanes (s : State) (d : Nat) (f : Fenv → Nat → List Dual) : State :=
  let env := fun (l : Nat) => s.fenv f32 (s.globalId l) 0
  let rs := fun (l : Nat) => (f { env l with sat := false } l).map ((env l).finish s.d)
  s.writeLanes (fun l => groupWords s.d d l (rs l)) (fun l => laneFlags (rs l))

/-- WELF. -/
def execWelf (d a b : Nat) (s : State) : Host.Outcome State Fault Refusal :=
  simple (.welf d a b) (fun s => s.statLanes d fun e l =>
    e.welf s.d (s.dual a l) (s.dual (a + 1) l) (s.dual (a + 2) l) (s.dual b l) (s.dual (b + 1) l) (s.dual (b + 2) l)) s

/-- SMXM. -/
def execSmxm (d a b : Nat) (s : State) : Host.Outcome State Fault Refusal :=
  simple (.smxm d a b) (fun s => s.statLanes d fun e l =>
    e.smxm s.d (s.dual a l) (s.dual (a + 1) l) (s.dual b l) (s.dual (b + 1) l)) s

/-- SMXN. -/
def execSmxn (d a b f : Nat) (s : State) : Host.Outcome State Fault Refusal :=
  simple (.smxn d a b f) (fun s =>
    let one := fun (e : Fenv) (l : Nat) => e.smxn s.d (s.dual a l) (s.dual b l) (s.dual (b + 1) l)
    let e0 : Fenv := { s.fenv f32 0 0 with sat := false }
    (s.statLanes d fun e l => [(one e l).1]).wrP f s.active (maskBy fun l => (one e0 l).2)) s

end Sys2Proof.Machine
end

