-- ==== Sys2Proof/Machine/FaultQueue.lean ====
section
/-!
DEFINITION. The device fault queue: entries, responses, the ring's disabling, and TKILL (R225, R302, R303, R364, R450 to R456).
-/
namespace Sys2Proof.Machine

/-- The bytes of an entry (R451). -/
def State.entryBytes (s : State) (f : FaultRec) (seq : Nat) : List Byte :=
  let ray := match f.kind with | 2 => f.record | 3 => f.record | _ => 0
  leBytes 4 seq ++ leBytes 1 f.cause ++ leBytes 1 (f.kind % 16) ++ leBytes 2 f.ctx ++ leBytes 4 f.grid
    ++ leBytes 2 (s.realSlot f.gs) ++ leBytes 2 0 ++ leBytes 8 f.vaddr ++ leBytes 8 f.paddr ++ leBytes 8 ray
    ++ leBytes 8 f.time ++ leBytes 4 f.info ++ List.replicate 12 0

/-- The ring has room for an entry (R451, R452). -/
def State.ringRoom (s : State) : Bool := decide ((s.fqprod - s.fqcons).toNat < 2 ^ s.fqLog.toNat)

/-- The number of an entry is noted with the party that it concerns. -/
def State.noteEntry (s : State) (f : FaultRec) (seq : Nat) : State :=
  match f.kind with
  | 0 => s.modGroup f.gs fun g =>
      { g with parked := g.parked.map fun (p : Parked) => if p.cap.act == f.mask then { p with seq := some seq } else p }
  | 1 => s.modOp f.target fun o => { o with suspended := o.suspended.map fun _ => some seq }
  | 2 => { s with rays := s.rays.map fun (r : Ray) =>
      if r.id == f.target then { r with faulted := r.faulted.map fun _ => some seq } else r }
  | _ => s

/-- The oldest fault that has no entry, and the others. -/
def firstUnsent : List FaultRec → Option (List FaultRec × FaultRec × List FaultRec)
  | [] => none
  | f :: rest =>
    if f.seq.isNone then some ([], f, rest)
    else (firstUnsent rest).map fun r => (f :: r.1, r.2.1, r.2.2)

/-- An entry is written, in the order of detection, while the ring has room (R451, R452). An entry whose place is not memory
goes nowhere, which the spec does not say. DEDUCED (log entry 42), unsafe. -/
def State.writeEntry (s : State) : State :=
  if !s.ringInUse || !s.ringRoom then s
  else
    match firstUnsent s.faults with
    | none => s
    | some (before, f, after) =>
      let seq := s.fqprod.toNat
      let at' := s.deviceKey (s.fqbase.toNat + 64 * (seq % 2 ^ s.fqLog.toNat))
      let put := match s.physical s.nextGrid at' false with
        | .ok key _ => if s.stackWaits key then none else some (s.storeBytes key (s.entryBytes f seq))
        | _ => some s
      match put with
      | none => s
      | some s =>
        let s := { s with faults := before ++ { f with seq := some seq } :: after, fqprod := s.fqprod + 1 }
        let s := if f.kind = 0 then s.keepParked (s.noteEntry f seq) f.gs else s.noteEntry f seq
        { (s.signalOnce 5 s.fqSignalled) with fqSignalled := some (s.now / 1000) }

/-- FAULT_QUEUE_ENTRY (R451, R452). -/
def execEvFaultQueueEntry (s : State) : Host.Outcome State Fault Refusal := happen (fun s => s.writeEntry) s

/-- What an answer does, by KIND (R453). -/
def State.answer (s : State) (f : FaultRec) (fail : Bool) : State :=
  match f.kind with
  | 0 => s.keepParked (s.answerFault f fail) f.gs
  | 1 => s.answerFault f fail
  | 2 => s.answerRay f.target f.cause fail
  | _ => s.modTeam f.target fun t => { t with killedSeq := none }

/-- A response: the first to an entry decides; to one that is unknown or answered it is ignored (R453). -/
def State.respond (s : State) (seq : Nat) (fail : Bool) : State :=
  match s.faults.find? fun f => f.seq == some seq with
  | none => s
  | some f =>
    let s := { s with faults := s.faults.filter fun (x : FaultRec) => x.seq != some seq }
    (s.answer f fail).resumeSuspended

/-- FAULT_RESPONSE (R453). -/
def execEvFaultResponse (seq : Nat) (s : State) : Host.Outcome State Fault Refusal := happen (fun s => s.respond seq false) s

/-- FAULT_RESPONSE_FAIL (R453). -/
def execEvFaultResponseFail (seq : Nat) (s : State) : Host.Outcome State Fault Refusal := happen (fun s => s.respond seq true) s

/-- The faults held for a full ring are answered as with FAIL where the ring is no longer in use; they are never written
(R452). -/
def State.dropHeld (s : State) : State :=
  if s.ringInUse then s
  else
    let held : List FaultRec := s.faults.filter fun f => f.seq.isNone
    let s := { s with faults := s.faults.filter fun (f : FaultRec) => f.seq.isSome }
    (held.foldl (fun (s : State) f => s.answer f true) s).resumeSuspended

/-- FAULT_QUEUE_DISABLE (R452): EN is cleared. -/
def execEvFaultQueueDisable (s : State) : Host.Outcome State Fault Refusal :=
  happen (fun s => { s with fqEn := false }.dropHeld) s

/-- TKILL (R455, R456): every team of the grid is killed; those of a launch that have no place yet are killed before they have
one, and count. DEDUCED (log entry 36), unsafe for NKILL. -/
def State.tkill (s : State) (v : Nat) : State :=
  let mine := fun (g : Grid) => !g.finished && g.ctx == v / 2 ^ 32 % 2 ^ 16 && Packet.gridId g.packet == v % 2 ^ 32
  let keys := (s.grids.filter mine).map (·.key)
  let s := (s.teams.filter fun t => keys.contains t.grid && !t.ended).foldl
    (fun (s : State) t => s.killTeam t.serial 0xFFFF 0 0 0 0) s
  { s with grids := s.grids.map fun (g : Grid) =>
      if mine g && g.accepted && g.consumerOf.isNone && decide (g.nextTeam < g.teams) then
        { g with kills := g.kills + (g.teams - g.nextTeam), nextTeam := g.teams, status := max g.status 2 }
      else g }.settleRequests

/-- TKILL (R455). -/
def execEvTkill (value : Nat) (s : State) : Host.Outcome State Fault Refusal := happen (fun s => s.tkill value) s

end Sys2Proof.Machine
end

