-- ==== Sys2Proof/Machine/Scopes.lean ====
section
/-!
DEFINITION. What a core does to its groups of its own accord: pressure on register scopes and their service, the end of a YIELD,
and the watchdog (R126, R129, R309 to R312, R443).
-/
namespace Sys2Proof.Machine

/-- The fragment of a group is selected, with the entry that it has to issue again, if any (R302, R448). -/
def State.take (s : State) (gs frag : Nat) : State :=
  let s := s.select gs frag
  if s.live then { s with ov := s.fr.inject.head? } else s

/-! ## Scopes -/

/-- The youngest of a list of groups, by start order. -/
def youngest (gs : List Group) : Option Group := gs.find? fun g => !(gs.any fun h => decide (g.order < h.order))

/-- The registers of a group's open scopes, with their planes. -/
def Group.scopeWords (g : Group) : Sparse Word := skeep (fun k => decide (vkey (g.alloc - g.scopeSum) 0 0 ≤ k)) g.vregs

/-- The open scopes of a group go to its context slot (R129, R406): where each lies there is given, not the order of its words. -/
def State.saveScopes (s : State) (g : Group) : State :=
  let lo := charge g.tangents (g.alloc - g.scopeSum)
  let va := s.slotVa g.ctx g.gs + frameOffset + lo
  let grid := match s.team? g.team with | some t => t.grid | none => 0
  if s.deviceWaits grid g.ctx va g.savedNeed then s
  else
  match s.deviceWrite grid g.ctx va (hiddenBytes s.tick va g.savedNeed) with
  | none =>
    s.damage g.ctx grid g.gs (va / 4096 * 4096)
  | some s =>
    (s.modGroup g.gs fun g =>
      { g with savedScopes := some g.scopeWords, vregs := skeep (fun k => decide (k < vkey (g.alloc - g.scopeSum) 0 0)) g.vregs }).draw

/-- The oldest waiting group's RSCOPE traps ILLEGAL with subcode 5, in the fragment that waits in it (R310). -/
def State.scopeTrap (s : State) (g : Group) : State :=
  match g.wantsScope with
  | none => s
  | some (frag, n) =>
    let t := (s.take g.gs frag).modMe fun g => { g with wantsScope := none }
    if t.live then (t.trapAt? (.rscope n) (Trap.plain causeIllegal 5 t.fr.exec)).getD s else s

/-- Every resident group of a core waits in RSCOPE (R129, R310): where the oldest's request does not fit, or its own saved scopes do not,
the youngest other group whose scopes are open and not saved has them saved, unless a handler runs in it; where there is none, the
oldest traps (R313). DEDUCED (log entry 16), unsafe. -/
def State.scopePressure (s : State) (core : Nat) : State :=
  let gs := s.onCore core
  if !(gs.all (·.waitsScope)) then s
  else
    match oldest gs with
    | none => s
    | some o =>
      if (if o.savedScopes.isSome then o.savedNeed else o.scopeNeed) ≤ s.freeBytes core then s
      else
        match youngest (gs.filter fun g =>
            g.gs != o.gs && g.savedScopes.isNone && !g.scopes.isEmpty && g.handler.isNone) with
        | some g => s.saveScopes g
        | none => s.scopeTrap o

/-- RSCOPE_PRESSURE (R129). -/
def execEvRscopePressure (core : Nat) (s : State) : Host.Outcome State Fault Refusal := happen (fun s => s.scopePressure core) s

/-- The registers of saved scopes return as they were (R311). -/
def Group.reinstate (g : Group) : Group :=
  match g.savedScopes with
  | some ws => { g with savedScopes := none, vregs := g.vregs ++ ws }
  | none => g

/-- Space of a core goes to the saved scopes that fit, oldest group first, then to the requests that fit (R309). -/
def State.serveScope (s : State) (core : Nat) : State :=
  match s.toReinstate core with
  | some g => s.modGroup g.gs Group.reinstate
  | none =>
    match s.toGrant core with
    | some g => s.modGroup g.gs fun g => { g with granted := true }
    | none => s

/-- SCOPE_SERVE (R309). -/
def execEvScopeServe (core : Nat) (s : State) : Host.Outcome State Fault Refusal := happen (fun s => s.serveScope core) s

/-! ## YIELD and the watchdog -/

/-- 16 clk have passed since a time, on the clock of a group's cluster (R126, R458). -/
def State.sixteenPassed (s : State) (gs since : Nat) : Bool :=
  decide (s.clockAt gs since + 16 ≤ s.clock gs)

/-- A group's YIELD ends (R126). DEDUCED (log entry 17), unsafe for the order of issue. -/
def State.yieldOver (s : State) (gs : Nat) : State :=
  match (s.group? gs).bind (·.yielded) with
  | some t => if s.sixteenPassed gs t then s.modGroup gs fun g => { g with yielded := none } else s
  | none => s

/-- YIELD_EXPIRY (R126). -/
def execEvYieldExpiry (gs : Nat) (s : State) : Host.Outcome State Fault Refusal := happen (fun s => s.yieldOver gs) s

/-- The group's count has reached the limit: it is to take WATCHDOG, and the count restarts (R443). The fragment that has gone
longest without issuing takes it. DEDUCED (log entry 43): unsafe for which fragment traps. -/
def State.bark (s : State) (gs : Nat) : State :=
  match s.group? gs with
  | none => s
  | some g =>
    if g.ended || g.saved || !s.dogDue g then s
    else
      let free := g.frags.filter fun f => f.st == .running && !f.held
      let fs := if free.isEmpty then g.frags else free
      match fs.find? fun f => !(fs.any fun x => decide (x.last < f.last)) with
      | none => s
      | some f =>
        (s.holdTrap gs f.id { cause := causeWatchdog, sub := 0, addr := 0 }).modGroup gs fun g =>
          { g with dogCount := 0, dogWindow := if g.dogWindow = s.dogNow then g.dogWindow else 0 }

/-- WATCHDOG (R443). -/
def execEvWatchdog (gs : Nat) (s : State) : Host.Outcome State Fault Refusal := happen (fun s => s.bark gs) s

end Sys2Proof.Machine
end

