-- ==== Sys2Proof/Machine/Invalidate.lean ====
section
/-!
DEFINITION. The invalidation commands of translations and of instruction caches, and the fetch of an instruction's word (R112,
R295, R423 to R425, R435).
-/
namespace Sys2Proof.Machine

/-! ## Translations (R425) -/

/-- Fields of TVA and of ICVA. -/
def cmdVa (v : BitVec 64) : Nat := v.toNat / 2 ^ 12 % 2 ^ 45 * 2 ^ 12
def cmdScope (v : BitVec 64) : Nat := v.toNat % 4

/-- GO under a TSCOPE: it starts the invalidation where none runs, of what the registers name by then; a TSCOPE of 3 is ignored
(R425). -/
def State.tlbGo (s : State) (scope : Nat) : State :=
  if s.tlbBusy || cmdScope s.tva != scope || scope == 3 then s
  else { s with tlbBusy := true, tlbRun := ⟨scope, cmdVa s.tva, s.tctx.toNat⟩ }

/-- TLB_INVALIDATE_VA (R425). -/
def execEvTlbInvalidateVa (s : State) : Host.Outcome State Fault Refusal := happen (fun s => s.tlbGo 0) s

/-- TLB_INVALIDATE_CONTEXT (R425). -/
def execEvTlbInvalidateContext (s : State) : Host.Outcome State Fault Refusal := happen (fun s => s.tlbGo 1) s

/-- TLB_INVALIDATE_ALL (R425). -/
def execEvTlbInvalidateAll (s : State) : Host.Outcome State Fault Refusal := happen (fun s => s.tlbGo 2) s

/-- A cached translation that the command covers, and an entry of a walk cache. -/
def Command.covers (c : Command) (t : Translation) : Bool :=
  match c.scope with
  | 0 => t.covers c.ctx c.va
  | 1 => t.ctx == c.ctx
  | _ => true
def Command.coversTable (c : Command) (t : TableEntry) : Bool :=
  match c.scope with
  | 0 => t.ctx == c.ctx && t.upper == upperBits t.level c.va
  | 1 => t.ctx == c.ctx
  | _ => true

/-- An access that has translated and not performed, and may have used a translation that the command covers: for one page, any
of the context within the largest page about TVA, for the page that served it is not kept. Engines translate as they perform. DEDUCED (log
entry 44), safe. -/
def State.oldAccess (s : State) (o : Op) (x : Access) : Bool :=
  let mine := (s.anyGroup? o.gs).any fun g => g.ctx == s.tlbRun.ctx
  match s.tlbRun.scope with
  | 0 => mine && decide (x.va / 2 ^ 32 = s.tlbRun.va / 2 ^ 32)
  | 1 => mine && decide (x.va < sramVa)
  | _ => decide (x.va < sramVa)

/-- An operation with such an access, or with data on its way to its registers, which completes it (R183). -/
def State.oldOp (s : State) (o : Op) : Bool :=
  o.path == some .ls
  && (o.todo.any (s.oldAccess o)
    || (!o.got.isEmpty && (s.tlbRun.scope == 2 || (s.anyGroup? o.gs).any fun g => g.ctx == s.tlbRun.ctx)))

/-- The invalidation completes when every access that used a covered translation has completed: no cache holds one any more
(R425). -/
def State.tlbDone (s : State) : State :=
  if !s.tlbBusy || s.ops.any s.oldOp then s
  else
    { s with
      tlbBusy := false
      tlb := s.tlb.filter fun t => !s.tlbRun.covers t
      walks := s.walks.filter fun t => !s.tlbRun.coversTable t }.signal 3

/-- TLB_INVALIDATE_DONE (R425). -/
def execEvTlbInvalidateDone (s : State) : Host.Outcome State Fault Refusal := happen (fun s => s.tlbDone) s

/-! ## Instruction caches (R435) -/

/-- GO of ICCMD. -/
def State.icGo (s : State) (scope : Nat) : State :=
  if s.icBusy || cmdScope s.icva != scope || scope == 3 then s
  else { s with icBusy := true, icRun := ⟨scope, cmdVa s.icva, s.icctx.toNat⟩ }

/-- ICACHE_INVALIDATE_VA (R435). -/
def execEvIcacheInvalidateVa (s : State) : Host.Outcome State Fault Refusal := happen (fun s => s.icGo 0) s

/-- ICACHE_INVALIDATE_CONTEXT (R435). -/
def execEvIcacheInvalidateContext (s : State) : Host.Outcome State Fault Refusal := happen (fun s => s.icGo 1) s

/-- ICACHE_INVALIDATE_ALL (R435). -/
def execEvIcacheInvalidateAll (s : State) : Host.Outcome State Fault Refusal := happen (fun s => s.icGo 2) s

/-- A line that the command covers: for one page, any line of the page about ICVA, of whatever size it is mapped. DEDUCED (log
entry 45), safe. -/
def State.icCovers (s : State) (ctx va : Nat) : Bool :=
  let c := s.icRun
  let size := match s.page c.ctx c.va with | .page _ n _ => n | .no _ => 4096
  match c.scope with
  | 0 => ctx == c.ctx && decide (va / size = c.va / size)
  | 1 => ctx == c.ctx
  | _ => true

/-- The invalidation completes: no cache holds a line that it covers, and no fragment goes on in one (R435). -/
def State.icDone (s : State) : State :=
  if !s.icBusy then s
  else
    let stays := fun (g : Group) (f : Frag) => { f with code := f.code.filter fun c => !s.icCovers g.ctx c.1 }
    { s with
      icBusy := false
      icache := s.icache.filter fun ln => !s.icCovers ln.ctx ln.va
      l2i := s.l2i.filter fun ln => !s.icCovers ln.ctx ln.va
      groups := s.groups.map fun (g : Group) => { g with frags := g.frags.map (stays g) } }.signal 4

/-- ICACHE_INVALIDATE_DONE (R435). -/
def execEvIcacheInvalidateDone (s : State) : Host.Outcome State Fault Refusal := happen (fun s => s.icDone) s

/-! ## Fetching (R112, R435) -/

/-- What a fetch comes to. -/
inductive Fetched where
  /-- The word. -/
  | word (w : Nat) (s : State)
  /-- The line's stack is not up (R469). -/
  | waits
  /-- The fetch traps (R112). -/
  | fails (why : NoAccess)

/-- A line of a list that one cache, of a core or of a die, holds of an address of a context. -/
def lineOf (ls : List Line) (cache ctx va : Nat) : Option Line :=
  ls.find? fun ln => ln.core == cache && ln.ctx == ctx && ln.va == va / 64 * 64

/-- A line put first into a cache that holds so many (R1). -/
def putLine (cache cap : Nat) (ln : Line) (ls : List Line) : List Line :=
  capLines cache cap ({ ln with core := cache } :: ls.filter fun x => !(x.core == cache && x.ctx == ln.ctx && x.va == ln.va))

/-- The lines of an instruction cache of 128 KiB, and of one of 8 MiB (R1). -/
def l1iLines : Nat := 2048
def l2iLines : Nat := 131072

/-- A line comes into a core's instruction cache, and into that of its die where it comes from memory (R1, R435). -/
def State.holdLine (s : State) (core : Nat) (ln : Line) : State := { s with icache := putLine core l1iLines ln s.icache }
def State.fillLine (s : State) (core : Nat) (ln : Line) : State :=
  { s.holdLine core ln with l2i := putLine (core / 64) l2iLines ln s.l2i }

/-- The word at an address of a line, in which the fragment goes on: it finds no other words of that line while it stays there (R435). -/
def State.fetched (s : State) (va : Nat) (bytes : List Byte) : Fetched :=
  .word (fieldAt bytes (va % 64) 4) (s.modFr fun f => { f with code := some (va / 64 * 64, bytes) })

/-- The line read from memory, which the caches then hold (R435, R464). -/
def State.fetchLine (s : State) (core ctx va key : Nat) : Fetched :=
  let base := key / 64 * 64
  if s.stackWaits key then .waits
  else if s.poisoned base 64 then .fails ⟨3, true, base⟩
  else
    let bytes := s.rdBytes base 64
    (s.fillLine core { core := core, pa := base, bytes := bytes, fill := 0, ctx := ctx, va := va / 64 * 64 }).fetched va bytes

/-- The fetch of the word at an address: from the line that the fragment executes; else from one that its core's or its die's cache holds,
or from memory, for a line may have been lost; which of them is not said (R435). The page must allow the fetch in either case (R112,
R423). DEDUCED (log entry 45), safe. -/
def State.fetch (s : State) (grid core ctx va : Nat) : Fetched :=
  match s.resolve grid ctx none Need.code va 4 with
  | .no why => if why.cause = 0 then .waits else .fails why
  | .ok key _ =>
    match s.fr.code.filter fun c => c.1 == va / 64 * 64 with
    | some c => s.fetched va c.2
    | none =>
      match lineOf s.icache core ctx va, lineOf s.l2i (core / 64) ctx va with
      | none, none => s.fetchLine core ctx va key
      | l1, l2 =>
        let held := l1.toList ++ l2.toList
        match held[Config.choice s.tick % (held.length + 1)]? with
        | some ln => (s.draw.holdLine core ln).fetched va ln.bytes
        | none => s.draw.fetchLine core ctx va key
  | _ => .fails permFinal

end Sys2Proof.Machine
end

