-- ==== Sys2Proof/Machine/Device.lean ====
section
/-!
DEFINITION. The device as a whole: reset, bring-up, firmware, clocks and their trace, budget windows, soft errors and their
registers, the protective trip, synchronisation and fabric ports (R403, R429, R430, R457 to R470).
-/
namespace Sys2Proof.Machine

/-! ## Writes from outside -/

/-- A leaf entry of a level that maps a race-checked page: its base and size (R420, R421). -/
def chkLeaf (level e : Nat) : List (Nat × Nat) :=
  if e % 4 = 3 ∧ e / 256 % 2 = 1 then
    match leafSize level (e / 512 % 8) with
    | some n => [(e / 2 ^ 12 % 2 ^ 40 * 2 ^ 12, n)]
    | none => []
  else []

/-- The race-checked pages that a table and those below it map. -/
def State.chkPages (s : State) : Nat → Nat → List (Nat × Nat)
  | 0, table => if tableOk table then (List.range 512).flatMap fun i => chkLeaf 0 (s.rdNat (table + 8 * i) 8) else []
  | n + 1, table =>
    if tableOk table then
      (List.range 512).flatMap fun i =>
        let e := s.rdNat (table + 8 * i) 8
        if e % 4 = 1 then s.chkPages n (e / 2 ^ 12 % 2 ^ 40 * 2 ^ 12) else chkLeaf (n + 1) e
    else []

/-- The contexts that the context table has a record of: one that is not all zeros (R405). -/
def State.contexts (s : State) : List Nat :=
  let lo := s.deviceKey s.ctxtab.toNat
  ((s.memory.filter fun c => decide (lo ≤ c.1) && decide (c.1 < lo + 2 ^ 22)).map fun c => (c.1 - lo) / 64).eraseDups

/-- The race-checked pages that the contexts' tables map. -/
def State.mappedChk (s : State) : List (Nat × Nat) :=
  s.contexts.flatMap fun ctx =>
    match s.recordReach (s.ctxPa ctx) 8 with
    | .ok key _ => s.chkPages 4 (s.rdNat key 8)
    | _ => []

/-- The tags of pages that system software has mapped CHK, and had not before, are cleared (R336). A mapping that it makes otherwise than
by a write from outside or to CTXTAB is not seen. DEDUCED (log entry 20), unsafe. -/
def State.clearMapped (s old : State) : State :=
  if s.tags.all fun kt => isSram (32 * kt.1) then s
  else
    let was := old.mappedChk
    let pages := s.mappedChk.filter fun p => !was.contains p
    let out := fun (key : Nat) => !(pages.any fun p => decide (p.1 ≤ key) && decide (key < p.1 + p.2))
    { s with
      tags := skeep (fun k => out (32 * k)) s.tags
      syncs := skeep (fun k => out (4 * k)) s.syncs
      commits := skeep (fun k => out (32 * k)) s.commits }

/-- Writes that other dies may not see yet no longer stand for the bytes that one from outside has covered. -/
def Recent.covered (w : Recent) (key n : Nat) : Recent :=
  { w with cells := w.cells.filter fun c => !(decide (key ≤ c.1) && decide (c.1 < key + n)) }

/-- Bytes of this device's HBM4E that lie in one stack written from outside, at their home: they wait while the stack has not come up, and
those of a failed stack are an uncorrectable error (R314, R432, R467, R469). -/
def State.outsidePart (s : State) (addr : Nat) (bs : List Byte) : State :=
  if s.stackFailed addr then s.reportError addr 1
  else if s.stackWaits addr then { s with late := s.late ++ [.bytes addr bs] }
  else
    let t := (s.engineMeets true (keysFrom addr bs.length)).storeBytes addr bs
    { t with recent := (t.recent.map fun w => w.covered addr bs.length).filter fun w => !w.cells.isEmpty }

/-- A write from outside performs where its bytes lie in HBM4E; it clears the poison of sectors that it covers whole (R464, R469). DESIGN
CHOICE (log entries 20 and 48), unsafe. -/
def State.outsideWrite (s : State) (addr : Nat) (bs : List Byte) : State :=
  if 384000000000 < addr + bs.length then s
  else
    ((stackParts addr bs.length).foldl (fun (t : State) a =>
      t.outsidePart a ((bs.drop (a - addr)).take ((a / 256 + 1) * 256 - a))) s).clearMapped s

/-! ## Reset and bring-up (R468, R469) -/

/-- Reset: every register and every unit is as after power-up, and the stored firmware image takes effect (R468, R470). The image before it is kept. Memory, the
time, what the outside has still to do and what it has been told stand as they are. DEDUCED (log entry 7): unsafe where memory
does not survive a reset. -/
def State.deviceReset (s : State) : State :=
  { State.reset with
    memory := s.memory, poison := s.poison, now := s.now, counted := s.now, tick := s.tick, inputs := s.inputs, msix := s.msix
    mctp := s.mctp, firmware := s.firmwareNext.getD s.firmware
    firmwareKept := if s.firmwareNext.isSome then some (s.firmwareKept.getD s.firmware) else s.firmwareKept }

/-- DEVICE_RESET (R468). -/
def execEvDeviceReset (s : State) : Host.Outcome State Fault Refusal := happen State.deviceReset s

/-- One bit of a word set. -/
def setBit (w : Word) (n : Nat) : Word := w ||| (1#32 <<< n)

/-- A function has come up, or has failed: neither happens again before a reset (R468). -/
def State.settled (s : State) (n : Nat) : Bool := s.ready.getLsbD n || s.failed.getLsbD n

/-- The readiness register changes: vector 7 (R468). -/
def State.reports (s : State) (n : Nat) (ok : Bool) : State :=
  if ok then { s with ready := setBit s.ready n }.signal 7 else { s with failed := setBit s.failed n }.signal 7

/-- The 40 ns boundary at or after a time (R458, R462). -/
def boundary (t : Nat) : Nat := (t + 39) / 40 * 40

/-- A cluster whose die reports ready at a time: its trace begins (R462, R469). -/
def Cluster.start (time : Nat) : Cluster := { Cluster.reset with head := 1, trace := [(0, boundary time, 44)] }

/-- A die comes up: it has accepted the firmware, its SRAM slices hold zero, their tags are clear, its clusters' clocks and traces start
(R469, R470). -/
def State.dieUp (s : State) (d : Nat) : State :=
  let lo := sramKey (d * 2 ^ 29)
  let out := fun (k : Nat) => decide (k < lo) || decide (lo + 2 ^ 29 ≤ k)
  let s := { s with
    firmwareKept := none
    memory := skeep out s.memory
    poison := s.poison.filter out
    tags := skeep (fun k => out (32 * k)) s.tags
    syncs := skeep (fun k => out (4 * k)) s.syncs
    commits := skeep (fun k => out (32 * k)) s.commits
    clusters := ssets Cluster.reset s.clusters ((List.range 16).map fun i => (16 * d + i, Cluster.start s.now)) }
  s.reports (8 + d) true

/-- DIE_READY (R469, R470): the outcome 1 is success; a greater one says that the boot ROM rejected the firmware or the part
record, which sets FWF beside DIEF; 0 is another failure. DESIGN CHOICE (log entry 9), safe. -/
def execEvDieReady (die ok : Nat) (s : State) : Host.Outcome State Fault Refusal :=
  happen (fun s =>
    if 4 ≤ die ∨ s.settled (8 + die) then s
    else if ok = 1 then s.dieUp die
    else
      let s := if 2 ≤ ok then { s with failed := setBit s.failed 28 } else s
      s.reports (8 + die) false) s

/-- A write that waited for a stack is made, or waits on. -/
def State.makeLate (s : State) : Late → State
  | .bytes pa bs => s.outsideWrite (s.deviceKey pa) bs
  | .parked gs => match s.anyGroup? gs with | some g => if g.saved then s else s.mustWriteParked g | none => s
  | .unit grid ctx gs u => s.clearUnit grid ctx gs u

/-- What waited for a stack goes on, in order: writes, doorbells, batches, landings that are given up (R469). -/
def State.settleLate (s : State) : State :=
  ((s.late.foldl State.makeLate { s with late := [] }).ringBelated.formLate).dropLandings

/-- STACK_READY (R469). -/
def execEvStackReady (stack ok : Nat) (s : State) : Host.Outcome State Fault Refusal :=
  happen (fun s => if 8 ≤ stack ∨ s.settled stack then s else (s.reports stack (ok == 1)).settleLate) s

/-- PORT_READY (R469). -/
def execEvPortReady (port ok : Nat) (s : State) : Host.Outcome State Fault Refusal :=
  happen (fun s => if 16 ≤ port ∨ s.settled (12 + port) then s else s.reports (12 + port) (ok == 1)) s

/-- PORT_DOWN (R429): the port is not ready any more; its blocks go over the other ports of each mask. -/
def execEvPortDown (port : Nat) (s : State) : Host.Outcome State Fault Refusal :=
  happen (fun s =>
    if 16 ≤ port ∨ !s.portReady port then s
    else { s with ready := s.ready &&& ~~~(1#32 <<< (12 + port)) }.signal 7) s

/-- FIRMWARE_UPDATE (R470): the image is stored for the next reset where both signatures verify and the part accepts its
version. -/
def execEvFirmwareUpdate (ecdsa lms version : Nat) (s : State) : Host.Outcome State Fault Refusal :=
  happen (fun s =>
    if ecdsa ≠ 0 ∧ lms ≠ 0 ∧ Config.leastFirmware ≤ version then { s with firmwareNext := some version } else s) s

/-- PTP_SYNC (R430): the magnitude of the offset is reported; LOCK sets after 16 synchronisations in a row of at most 32 ns, and
clears above 64 ns. -/
def execEvPtpSync (offset : Nat) (s : State) : Host.Outcome State Fault Refusal :=
  happen (fun s =>
    if (List.range 16).all fun p => !s.portReady p then s
    else
      let good := if offset ≤ 32 then s.ptpGood + 1 else 0
      { s with
        ptpOffset := min offset 0xFFFF
        ptpGood := min good 16
        ptpLock := if 64 < offset then false else s.ptpLock || decide (16 ≤ good) }) s

/-! ## Clocks (R457 to R463) -/

/-- The die of a cluster is ready: otherwise its registers read 0 and writes to them are ignored (R469). -/
def State.clusterUp (s : State) (c : Nat) : Bool := decide (c < 64) && s.dieReady (c / 16)

/-- FSET is written (R457, R459). -/
def Cluster.request (k : Cluster) (code now : Nat) : Cluster :=
  if 57 ≤ code ∨ (k.pending.isNone ∧ code = k.fcur) then k
  else { k with fset := code, chg := 1, pending := some (code, now) }

/-- FSET_WRITE (R459). -/
def execEvFsetWrite (cluster value : Nat) (s : State) : Host.Outcome State Fault Refusal :=
  happen (fun s =>
    if s.clusterUp cluster then
      let k := (sget Cluster.reset s.clusters cluster).request (value % 64) s.now
      { s with clusters := sset Cluster.reset s.clusters cluster k }
    else s) s

/-- The entries of a trace. -/
def traceEntries : Nat := 4096

/-- An entry comes into the trace, which overwrites the one that is 4,096 older; the clocks of what is overwritten stay counted (R462,
R463). -/
def Cluster.record (k : Cluster) (time code : Nat) : Cluster :=
  let all := (k.head, time, code) :: k.trace
  let kept := all.take traceEntries
  let start := match kept.getLast? with | some e => e.2.1 | none => 0
  { k with
    fcur := code, head := (k.head + 1) % 2 ^ 32, trace := kept
    base := if all.length ≤ traceEntries then k.base else k.base + clocksTo start k.trace }

/-- The pending code takes effect at a time; a code that is in effect already is no change and leaves no entry, and one that was in effect
for no time has none either: the change waits for the next boundary (R458, R459, R462). DEDUCED (log entry 46): unsafe for FTHEAD in the
first case. -/
def Cluster.change (k : Cluster) (time : Nat) : Cluster :=
  match k.pending with
  | none => k
  | some (code, _) =>
    if code = k.fcur then { k with pending := none, chg := 0 }
    else if k.trace.any fun e => decide (time ≤ e.2.1) then k
    else ({ k with pending := none, chg := 0 } : Cluster).record time code

/-- FREQUENCY_CHANGE (R458): time comes to the next 40 ns boundary. -/
def execEvFrequencyChange (cluster : Nat) (s : State) : Host.Outcome State Fault Refusal :=
  happen (fun s =>
    let k := sget Cluster.reset s.clusters cluster
    if s.clusterUp cluster && k.pending.isSome then
      { s.reach (boundary s.now) with clusters := sset Cluster.reset s.clusters cluster (k.change (boundary s.now)) }
    else s) s

/-- BUDGET_WINDOW (R403): nothing has been charged in a window that begins. -/
def execEvBudgetWindow (s : State) : Host.Outcome State Fault Refusal :=
  happen (fun s => if s.window = s.budgetWindow then s else { s with window := s.budgetWindow, charges := [] }) s

/-! ## Soft errors (R464 to R467) -/

/-- An address that the scrub visits: a byte of a ready stack, or of a ready die's SRAM with bit 63 set (R466, R467). -/
def State.scrubbed (s : State) (addr : Nat) : Bool :=
  if isSram addr then decide (addr < sramKey (2 ^ 31)) && s.dieReady (sliceOf addr / 64)
  else decide (addr < 384000000000) && s.stackReady (stackOf addr)

/-- SCRUB (R464, R466, R467): 1 is an error that is corrected in place, 2 one that cannot be corrected, which poisons the sector or
word, and 3 one that an L2 finds in a sector of HBM4E; anything else finds none. DESIGN CHOICE (log entries 9 and 47), safe. -/
def execEvScrub (addr kind : Nat) (s : State) : Host.Outcome State Fault Refusal :=
  happen (fun s =>
    if !s.scrubbed addr then s
    else if kind = 1 then { s with cecnt := bumpWord s.cecnt }
    else if kind = 2 ∨ kind = 3 ∧ !isSram addr then
      let unit := poisonUnit addr
      { s with poison := if s.poison.contains unit then s.poison else unit :: s.poison }.reportError addr
        (if isSram addr then 3 else kind - 1)
    else s) s

/-- CORE_STATE_UNCORRECTABLE (R465): the team dies; its group's frame carries cause word 3 and the PC of the instruction that read
the state. The source is 4 to 6 (R467). While the frame's stack is not up it is not noticed (R469). -/
def State.coreError (s : State) (gs pc src : Nat) : State :=
  match s.group? gs with
  | none => s
  | some g =>
    if g.ended || g.saved || src < 4 || 6 < src then s
    else
      -- of a group whose lanes are all parked the frame shows no lane
      let f := g.frags.headD { Frag.empty with st := .gone }
      let t : State := { s.park with
        live := true, me := { g with frags := g.frags.drop 1 }, fr := f, groups := s.park.groups.filter fun x => x.gs != gs }
      let trap := Trap.plain causeEcc 0 0
      if t.frameWaits trap 0 (BitVec.ofNat 64 pc) [] false then s
      else
        match (t.reportError 0 src).writeFrame trap 0 (BitVec.ofNat 64 pc) [] false with
        | none => (t.reportError 0 src).damage g.ctx t.myGridKey gs t.frameVa
        | some u => u.killTeam g.team gs causeEcc causeEcc pc t.frameVa

/-- CORE_STATE_UNCORRECTABLE (R465). -/
def execEvCoreStateUncorrectable (gs pc src : Nat) (s : State) : Host.Outcome State Fault Refusal :=
  happen (fun s => s.coreError gs pc src) s

/-- CECNT_CLEAR (R467). -/
def execEvCecntClear (s : State) : Host.Outcome State Fault Refusal := happen (fun s => { s with cecnt := 0 }) s

/-- UECNT_CLEAR (R467). -/
def execEvUecntClear (s : State) : Host.Outcome State Fault Refusal := happen (fun s => { s with uecnt := 0 }) s

/-- PROTECTIVE_TRIP (R461): every team is killed, every launch under way ends with STATUS 2, TRIP is set, vector 8 signalled and the
trip reported over MCTP. Teams that stand saved are killed too, for nothing could run them. DEDUCED (log entry 41): unsafe for saved teams. -/
def State.tripOff (s : State) : State :=
  if s.trip then s
  else
    let s := { s with trip := true, mctp := s.mctp + 1 }
    let s := (s.teams.filter fun t => !t.ended).foldl (fun (s : State) t => s.killTeam t.serial 0xFFFF 0 0 0 0) s
    { s with grids := s.grids.map fun (g : Grid) =>
        if g.accepted && !g.finished then { g with status := max g.status 2 } else g }.signal 8

/-- PROTECTIVE_TRIP (R461). -/
def execEvProtectiveTrip (s : State) : Host.Outcome State Fault Refusal := happen State.tripOff s

end Sys2Proof.Machine
end

