-- ==== Sys2Proof/Machine/HostPort.lean ====
section
/-!
DEFINITION. What reaches the device from outside: writes over CXL.mem, accesses of other devices, and writes to the registers of the
CXL.io space (R314, R386, R387, R402, R405, R409, R425, R426, R432, R435, R443, R451, R457, R467).
-/
namespace Sys2Proof.Machine

/-- HOST_CXL_MEM_WRITE (R432): the address is the device's, as the HDM decoders give it (R474). -/
def execEvHostCxlMemWrite (addr : Nat) (bytes : List Nat) (s : State) : Host.Outcome State Fault Refusal :=
  happen (fun s => s.outsideWrite addr (bytes.map (BitVec.ofNat 8))) s

/-- PEER_MEMORY_ACCESS (R314, R429): an access of another device, over a port that is ready; a read changes nothing but the
transactions that it meets (R219). -/
def execEvPeerMemoryAccess (addr wr : Nat) (bytes : List Nat) (s : State) : Host.Outcome State Fault Refusal :=
  happen (fun s =>
    if (List.range 16).all fun p => !s.portReady p then s
    else if wr = 0 then s.engineMeets false ((List.range bytes.length).map (addr + ·))
    else s.outsideWrite addr (bytes.map (BitVec.ofNat 8))) s

/-! ## Registers -/

/-- A 64-bit register with one of its halves written. -/
def putHalf (r : BitVec 64) (high : Bool) (v : Nat) : BitVec 64 :=
  if high then BitVec.ofNat 64 (r.toNat % 2 ^ 32 + v % 2 ^ 32 * 2 ^ 32)
  else BitVec.ofNat 64 (r.toNat / 2 ^ 32 * 2 ^ 32 + v % 2 ^ 32)

/-- A budget record's word written (R402). -/
def Budget.put (b : Budget) (word v : Nat) : Budget :=
  match word with
  | 0 => { b with memb := BitVec.ofNat 32 v }
  | 1 => { b with skb := BitVec.ofNat 32 v }
  | 2 => { b with kshare := BitVec.ofNat 32 v }
  | _ => { b with rays := v % 512 }

/-- The command that a write to TLB or cache command registers starts (R425, R435). -/
def State.tlbCommand (s : State) (v : Nat) : State :=
  let s := { s with tctx := BitVec.ofNat 16 v }
  if Nat.testBit v 31 then s.tlbGo (cmdScope s.tva) else s
def State.icCommand (s : State) (v : Nat) : State :=
  let s := { s with icctx := BitVec.ofNat 16 v }
  if Nat.testBit v 31 then s.icGo (cmdScope s.icva) else s

/-- The ring's control word: a ring that goes out of use answers what is held for it (R451, R452). -/
def State.ringControl (s : State) (v : Nat) : State :=
  { s with fqEn := Nat.testBit v 16, fqLog := BitVec.ofNat 5 v }.dropHeld

/-- A 32-bit write to the register space: fields that can be written take their value, others are left (R386 and the register
maps); an offset that names no register, or one that only reads, changes nothing. -/
def State.writeRegister (s : State) (off v : Nat) : State :=
  match off with
  | 0x1000 => { s with lqtab := putHalf s.lqtab false v }
  | 0x1004 => { s with lqtab := putHalf s.lqtab true v }
  | 0x1008 => s.doorbell v
  | 0x1010 => { s with ctxtab := putHalf s.ctxtab false v }.clearMapped s
  | 0x1014 => { s with ctxtab := putHalf s.ctxtab true v }.clearMapped s
  | 0x1018 => if preqCancel v then s.preemptCancel v else s.preemptRequest v
  | 0x1020 => { s with tva := putHalf s.tva false v }
  | 0x1024 => { s with tva := putHalf s.tva true v }
  | 0x1028 => s.tlbCommand v
  | 0x1030 => { s with icva := putHalf s.icva false v }
  | 0x1034 => { s with icva := putHalf s.icva true v }
  | 0x1038 => s.icCommand v
  | 0x1040 => { s with mesh := BitVec.ofNat 8 v, meshWritten := true }
  | 0x1050 => { s with wdog := BitVec.ofNat 24 v }
  | 0x1060 => { s with fqbase := putHalf s.fqbase false v }
  | 0x1064 => { s with fqbase := putHalf s.fqbase true v }
  | 0x1068 => s.ringControl v
  | 0x1070 => { s with fqcons := BitVec.ofNat 32 v }
  | 0x1080 => { s with cecnt := 0 }
  | 0x1084 => { s with uecnt := 0 }
  | off =>
    if 0x2000 ≤ off ∧ off < 0x2400 then
      let b := (off - 0x2000) / 16
      { s with budgets := sset Budget.reset s.budgets b ((s.budget b).put (off % 16 / 4) v) }
    else if 0x3000 ≤ off ∧ off < 0x4000 ∧ off % 64 = 0 ∧ s.clusterUp ((off - 0x3000) / 64) then
      let c := (off - 0x3000) / 64
      { s with clusters := sset Cluster.reset s.clusters c ((sget Cluster.reset s.clusters c).request (v % 64) s.now) }
    else s

/-- A write of 4 or 8 bytes, aligned; TKILL and the fault response take 64 bits at once (R451, R453). DESIGN CHOICE (log entry
9): unsafe where 8 bytes are not two halves. -/
def State.registerWrite (s : State) (off v size : Nat) : State :=
  if size = 8 ∧ off = 0x1058 then s.tkill v
  else if size = 8 ∧ off = 0x1078 then s.respond (v % 2 ^ 32) (Nat.testBit v 32)
  else if size = 8 ∧ off % 8 = 0 then (s.writeRegister off (v % 2 ^ 32)).writeRegister (off + 4) (v / 2 ^ 32 % 2 ^ 32)
  else if size = 4 ∧ off % 4 = 0 then s.writeRegister off (v % 2 ^ 32)
  else s

/-- REGISTER_WRITE (R386). A register whose write does something does it here too. -/
def execEvRegisterWrite (off value size : Nat) (s : State) : Host.Outcome State Fault Refusal :=
  happen (fun s => s.registerWrite off value size) s

/-- A half of a 64-bit register. -/
def halfOf (r : BitVec 64) (high : Bool) : Nat := if high then r.toNat / 2 ^ 32 else r.toNat % 2 ^ 32

/-- The word of a budget record, and of a cluster's block; those of an unready die read 0 (R402, R457, R469). -/
def Budget.word (b : Budget) : Nat → Nat
  | 0 => b.memb.toNat
  | 1 => b.skb.toNat
  | 2 => b.kshare.toNat
  | _ => b.rays
def State.clusterWord (s : State) (c word : Nat) : Nat :=
  if s.clusterUp c then
    let k := s.cluster c
    match word with
    | 0 => k.fset
    | 1 => k.fcur + k.chg * 2 ^ 31
    | 2 => k.energy % 2 ^ 32
    | 3 => k.energy / 2 ^ 32
    | 4 => k.head
    | _ => 0
  else 0

/-- A word of the trace of a cluster: entry n stands at 16 × (n mod 4,096), and one not written reads 0 (R462). -/
def State.traceWord (s : State) (c off : Nat) : Nat :=
  if s.clusterUp c then
    match (s.cluster c).trace.find? fun e => e.1 % 4096 == off / 16 with
    | some (_, time, code) => fieldAt (leBytes 8 time ++ leBytes 8 code) (off % 16) 4
    | none => 0
  else 0

/-- What a 32-bit read of the register space finds; reserved bits, write-only fields and offsets that name no register read 0 (R386 and
the register maps). The count that a read of PRCNT clears is cleared by the event PRCNT_READ. -/
def State.readRegister (s : State) (off : Nat) : Nat :=
  match off with
  | 0x1000 => halfOf s.lqtab false
  | 0x1004 => halfOf s.lqtab true
  | 0x1010 => halfOf s.ctxtab false
  | 0x1014 => halfOf s.ctxtab true
  | 0x101C => s.prcnt.toNat
  | 0x1020 => halfOf s.tva false
  | 0x1024 => halfOf s.tva true
  | 0x1028 => s.tctx.toNat + (if s.tlbBusy then 2 ^ 30 else 0)
  | 0x1030 => halfOf s.icva false
  | 0x1034 => halfOf s.icva true
  | 0x1038 => s.icctx.toNat + (if s.icBusy then 2 ^ 30 else 0)
  | 0x1040 => s.mesh.toNat
  | 0x1044 => (if s.ptpLock then 1 else 0) + s.ptpOffset * 2 ^ 16
  | 0x1050 => s.wdog.toNat
  | 0x1060 => halfOf s.fqbase false
  | 0x1064 => halfOf s.fqbase true
  | 0x1068 => s.fqLog.toNat + (if s.fqEn then 2 ^ 16 else 0)
  | 0x106C => s.fqprod.toNat
  | 0x1070 => s.fqcons.toNat
  | 0x1080 => s.cecnt.toNat
  | 0x1084 => s.uecnt.toNat
  | 0x1088 => halfOf s.ueaddr false
  | 0x108C => halfOf s.ueaddr true
  | 0x1090 => s.uesrc.toNat
  | 0x10A0 => s.ready.toNat
  | 0x10A4 => s.failed.toNat + (if s.trip then 2 ^ 29 else 0)
  | off =>
    if off % 4 ≠ 0 then 0
    else if 0x2000 ≤ off ∧ off < 0x2400 then (s.budget ((off - 0x2000) / 16)).word (off % 16 / 4)
    else if 0x3000 ≤ off ∧ off < 0x4000 then s.clusterWord ((off - 0x3000) / 64) (off % 64 / 4)
    else if 0x10_0000 ≤ off ∧ off < 0x50_0000 then s.traceWord ((off - 0x10_0000) / 0x1_0000) (off % 0x1_0000)
    else 0

/-! ## Words that are no instruction -/

/-- ILLEGAL_WORD (R91): the word traps ILLEGAL and changes nothing. -/
def execEvIllegalWord (w : Nat) (s : State) : Host.Outcome State Fault Refusal :=
  issue (.evIllegalWord w) (fun s => .trap (Trap.plain causeIllegal 0 s.active)) s

end Sys2Proof.Machine
end

