-- ==== Sys2Proof/Machine/Raster.lean ====
section
/-!
DEFINITION. Triangles and textures: coverage and the visibility buffer (R253, R254), filtered samples (R255, R256).
-/
namespace Sys2Proof.Machine

/-! ## Triangles -/

/-- A coordinate snapped to 1/256 under RNE, as a count of 1/256 (R253). -/
def snap (c : Nat) : Int :=
  match f32.value c with
  | .num n m e => let v : Int := roundTo .rne n 0 m e (-8); if n then -v else v
  | _ => 0

/-- The code is finite. -/
def finite32 (c : Nat) : Bool := decide (f32.mag c < f32.infMag)

/-- A triangle as PRIM gives it: nine coordinates and an id (R253). -/
structure Triangle where
  xs : List Nat
  id : Nat
deriving DecidableEq, Repr

/-- The triangle is discarded: a coordinate is not finite, or |x| or |y| is 2^15 or more (R253). -/
def Triangle.discarded (t : Triangle) : Bool :=
  !t.xs.all finite32
  || ([0, 1, 3, 4, 6, 7].any fun i => le32 0x47000000 (f32.mag (t.xs.getD i 0)))

abbrev Point := Int × Int

/-- Edge(a, b, q) in units of 1/65536 (R253). -/
def edge (a b q : Point) : Int := (b.1 - a.1) * (q.2 - a.2) - (b.2 - a.2) * (q.1 - a.1)

def Triangle.point (t : Triangle) (i : Nat) : Point := (snap (t.xs.getD (3 * i) 0), snap (t.xs.getD (3 * i + 1) 0))

/-- The value lies inside an edge: positive, or zero on a top or left edge taken from a to b (R253). -/
def inside (e : Int) (a b : Point) : Bool :=
  decide (0 < e) || (e == 0 && ((b.2 == a.2 && decide (a.1 < b.1)) || decide (b.2 < a.2)))

/-- The depth of a sample that the triangle covers (R253). -/
def Triangle.sample (t : Triangle) (i j : Nat) : Option Nat :=
  let p0 := t.point 0
  let p1 := t.point 1
  let p2 := t.point 2
  let q : Point := (256 * i + 128, 256 * j + 128)
  let area := edge p0 p1 p2
  let flip := fun (e : Int) => if area < 0 then -e else e
  let side := fun (a b : Point) => if area < 0 then inside (flip (edge a b q)) b a else inside (flip (edge a b q)) a b
  if area ≠ 0 && side p1 p2 && side p2 p0 && side p0 p1 then
    let ratio := fun (e : Int) => ne32 ((Exact.ofInt (flip e)).div (Exact.ofInt (flip area)))
    let z := fun (n : Nat) => t.xs.getD (3 * n + 2) 0
    let a := mul32 (ratio (edge p2 p0 q)) (sub32 (z 1) (z 0))
    let b := mul32 (ratio (edge p0 p1 q)) (sub32 (z 2) (z 0))
    some (add32 (add32 (z 0) a) b)
  else none

/-- The pixels from lo to hi that lie below a bound, where lo and hi are in 1/256. -/
def pixelSpan (lo hi : Int) (bound : Nat) : List Nat :=
  let first := (max 0 (lo / 256 - 1)).toNat
  let last := min bound (hi / 256 + 2).toNat
  (List.range (last - first)).map (first + ·)

/-- The samples of a W by H buffer that a triangle covers: entry number and depth. -/
def Triangle.samples (t : Triangle) (w h : Nat) : List (Nat × Nat) :=
  if t.discarded then []
  else
    let ps := [t.point 0, t.point 1, t.point 2]
    let low := fun (f : Point → Int) => (ps.map f).foldl min (f (t.point 0))
    let high := fun (f : Point → Int) => (ps.map f).foldl max (f (t.point 0))
    (pixelSpan (low (·.2)) (high (·.2)) h).flatMap fun j =>
      (pixelSpan (low (·.1)) (high (·.1)) w).filterMap fun i => (t.sample i j).map fun z => (j * w + i, z)

/-- The triangle of a lane. -/
def State.triangle (s : State) (a l : Nat) : Triangle :=
  { xs := (List.range 9).map fun i => (s.rdV (a + i) l).toNat, id := (s.rdV64 (a + 9) l).toNat }

/-- PRIM (R253, R254): the covered samples are still to be updated, each at an entry of the buffer. -/
def execPrim (h a la : Nat) (s : State) : Host.Outcome State Fault Refusal :=
  issue (.prim h a la) (fun s =>
    let hd := s.handle h
    if s.active = 0 then .done s.advance
    else
      let todo : List Access := (lanesOf s.active).flatMap fun l =>
        let t := s.triangle a l
        (t.samples (hd.word % 65536) (hd.word / 65536)).map fun e =>
          { lane := l, part := 0, va := (hd.base + 16 * e.1) % 2 ^ 64, pa := 0, size := 16, data := e.2 + t.id * 2 ^ 32
            chk := false }
      let u := s.advance.openOp (.prim h a la) (s.capture (.prim h a la)) todo []
      .done (if todo.isEmpty then u.closeOp (u.nextOp - 1) else u)) s

/-- (z, id) is less than the stored pair: by depth with −0 below +0, then by id; a NaN writes nothing (R254). -/
def nearer (z id storedZ storedId : Nat) : Bool :=
  let a := f32.value z
  let b := f32.value storedZ
  if f32.isNan z || f32.isNan storedZ then false
  else a.below b || (!b.below a && decide (id < storedId))

/-- A sample's update of its entry, one indivisible step (R254). -/
def State.rasterSample (s : State) (id : Nat) : State :=
  match s.op? id with
  | none => s
  | some o =>
    match o.todo with
    | [] => s
    | x :: rest =>
      if o.path != some .ra || o.complete || o.suspended.isSome then s
      else
        let (grid, ctx) := s.placeOf o.gs
        match s.resolve grid ctx none Need.both x.va 16 with
        | .ok key _ =>
          if s.poisoned key 16 then s.stopOp o (x.va, .no ⟨3, true, key⟩) true
          else
            match s.acceptMem o.gs [key] with
            | none => s
            | some s =>
              let z := x.data % 2 ^ 32
              let pid := x.data / 2 ^ 32
              let s := s.engineMeets false [key]
              let s := if nearer z pid (s.rdNat (key + 8) 4) (s.rdNat key 8) then
                  s.engineStore o.gs 5 o.region o.leaves ((List.range 12).map (key + ·)) (leBytes 8 pid ++ leBytes 4 z)
                else s
              let s := s.modOp id fun o => { o with begun := true, leaves := s.now, todo := rest }
              if rest.isEmpty then s.closeOp id else s
        | r => s.stopOp o (x.va, r) true

/-- RASTER_SAMPLE_UPDATE (R254). -/
def execEvRasterSampleUpdate (op : Nat) (s : State) : Host.Outcome State Fault Refusal := happen (fun s => s.rasterSample op) s

/-! ## Textures -/

/-- A texture as its handle gives it (R255). -/
structure Texture where
  base : Nat
  lw : Nat
  lh : Nat
  lv : Nat
  fmt : Nat
  clamp : Bool
deriving DecidableEq, Repr

def Texture.of (base w : Nat) : Texture :=
  { base := base, lw := w % 16, lh := w / 16 % 16, lv := w / 256 % 16, fmt := w / 4096 % 4, clamp := Nat.testBit w 14 }

def Texture.width (t : Texture) (m : Nat) : Nat := max 1 (2 ^ t.lw / 2 ^ m)
def Texture.height (t : Texture) (m : Nat) : Nat := max 1 (2 ^ t.lh / 2 ^ m)
def Texture.texel (t : Texture) : Nat := if t.fmt = 1 then 8 else 4

/-- The address of a level. -/
def Texture.level (t : Texture) : Nat → Nat
  | 0 => t.base
  | m + 1 => t.level m + t.width m * t.height m * t.texel

/-- NaN taken as 0. -/
def noNan (c : Nat) : Nat := if f32.isNan c then 0 else c

/-- λ clamped to the levels, with its floor and its fraction (R256). -/
def Texture.lod (t : Texture) (lambda : Nat) : Nat × Nat :=
  let top := ne32 (.ofInt (t.lv - 1 : Nat))
  let l := noNan lambda
  let l := if lt32 l 0 then 0 else if lt32 top l then top else l
  let m := (f32.value l).floor.toNat
  let f := sub32 l (ne32 (.ofInt m))
  -- a fraction of −0 is 0
  (m, if m + 1 = t.lv ∨ f32.mag f = 0 then 0 else f)

/-- The floor of a coordinate; of an infinite one the spec states none, and it is a free value. DESIGN CHOICE (log entry 28),
safe. -/
def floorIndex (x : Nat) : Int :=
  match f32.value x with
  | .inf _ => (Config.special 200 x : Int)
  | v => v.floor

/-- The coordinate, its index and its fraction along one axis of a level (R256). -/
def axis (u size : Nat) : Int × Nat :=
  let x := sub32 (mul32 (noNan u) (ne32 (.ofInt size))) 0x3F000000
  let i := floorIndex x
  (i, sub32 x (ne32 (.ofInt i)))

/-- An index wrapped or clamped into a size. -/
def Texture.index (t : Texture) (i : Int) (size : Nat) : Nat :=
  if t.clamp then (max 0 (min i (size - 1))).toNat else (i % size).toNat

/-- The addresses of a level's four texels. -/
def Texture.addresses (t : Texture) (m u v : Nat) : List Nat :=
  let w := t.width m
  let h := t.height m
  let i := (axis u w).1
  let j := (axis v h).1
  [(i, j), (i + 1, j), (i, j + 1), (i + 1, j + 1)].map fun p =>
    (t.level m + (t.index p.2 h * w + t.index p.1 w) * t.texel) % 2 ^ 64

/-- The channels of a texel in F32 (R256); R lies at the lowest byte. -/
def Texture.decode (t : Texture) (raw : Nat) : List Nat :=
  match t.fmt with
  | 0 => (List.range 4).map fun i => div32 (ne32 (.ofInt (raw / 2 ^ (8 * i) % 256 : Nat))) (ne32 (.ofInt 255))
  | 1 => (List.range 4).map fun i => ne32 (f16.value (raw / 2 ^ (16 * i) % 65536))
  | _ => [raw, 0, 0, 0x3F800000]

/-- Lerp (R256). -/
def lerp32 (p q w : Nat) : Nat := fma32 w (sub32 q p) p

/-- The filtered sample of a level from its four texels. -/
def Texture.filter (t : Texture) (m u v : Nat) (raw : List Nat) : List Nat :=
  let fx := (axis u (t.width m)).2
  let fy := (axis v (t.height m)).2
  let c := fun (n i : Nat) => (t.decode (raw.getD n 0)).getD i 0
  (List.range 4).map fun i => lerp32 (lerp32 (c 0 i) (c 1 i) fx) (lerp32 (c 2 i) (c 3 i) fx) fy

/-- The addresses that a lane's sample reads. -/
def Texture.reads (t : Texture) (u v lambda : Nat) : List Nat :=
  let (m, f) := t.lod lambda
  t.addresses m u v ++ (if f = 0 then [] else t.addresses (m + 1) u v)

/-- The sample from the texels read (R256). -/
def Texture.result (t : Texture) (u v lambda : Nat) (raw : List Nat) : List Nat :=
  let (m, f) := t.lod lambda
  let a := t.filter m u v raw
  if f = 0 then a
  else
    let b := t.filter (m + 1) u v (raw.drop 4)
    (List.range 4).map fun i => lerp32 (a.getD i 0) (b.getD i 0) f

/-- TEX (R256): lanes whose texels do not translate park (R225). -/
def execTex (d h a la : Nat) (s : State) : Host.Outcome State Fault Refusal :=
  issue (.tex d h a la) (fun s =>
    let hd := s.handle h
    let t := Texture.of hd.base hd.word
    let ls := lanesOf s.active
    let vas := fun l => t.reads (s.rdV a l).toNat (s.rdV (a + 1) l).toNat (s.rdV (a + 2) l).toNat
    if ls.isEmpty then .done s.advance
    else
      let bad := ls.filterMap fun l => (vas l).findSome? fun va => s.laneFault Need.load ⟨l, va, t.texel, false⟩
      let lost := faultLanes bad
      let good := ls.filter fun l => !lost.getLsbD l
      let cap := s.capture (.tex d h a la)
      let todo : List Access := good.flatMap fun l => (vas l).mapIdx fun n va =>
        { lane := l, part := n, va := va
          pa := match s.resolve s.myGridKey s.me.ctx none Need.load va t.texel with | .ok key _ => key | _ => 0
          size := t.texel, data := 0, chk := true }
      s.parkThenCheck cap bad lost false .tx (good.flatMap fun l => (vas l).map fun va => ⟨l, va, t.texel, false⟩) fun u later =>
        u.openOp (.tex d h a la) { cap with act := cap.act &&& ~~~lost } todo [hd.base, hd.word] later) s

/-- The texels of a lane read one after another, through L1 (R322). -/
def State.readTexels (s : State) (o : Op) : List Access → State × List Nat
  | [] => (s, [])
  | x :: xs =>
    let (v, s) := s.loadView o.gs x.pa x.size
    let r := (s.engineMeets false [x.pa]).readTexels o xs
    (r.1, v :: r.2)

/-- A lane's filtered data comes to its registers (R256). -/
def State.textureLane (s : State) (id lane : Nat) : State :=
  match s.op? id with
  | none => s
  | some o =>
    match o.cap.instr with
    | .tex d _ a _ =>
      let xs := o.todo.filter fun x => x.lane == lane
      if xs.isEmpty || o.complete || o.suspended.isSome then s
      else
        match xs.find? fun x => s.poisoned x.pa x.size || s.peerLost (s.placeOf o.gs).1 x.pa with
        | some x => s.stopOp o (x.va, .no ⟨3, true, x.pa⟩) false
        | none =>
          match s.acceptMem o.gs (xs.map (·.pa)) with
          | none => s
          | some s =>
            let t := Texture.of (o.nums.headD 0) (o.nums.getD 1 0)
            let at' := fun r => ((lookup o.cap.vec (vkey r 0 lane)).getD 0).toNat
            let r := s.readTexels o xs
            let out := t.result (at' a) (at' (a + 1)) (at' (a + 2)) r.2
            let s := r.1.modGroup o.gs fun g =>
              g.putVs ((List.range 4).flatMap fun i => plainWords g.tangents (d + i) lane (BitVec.ofNat 32 (out.getD i 0)))
            let s := s.modOp id fun o => { o with begun := true, todo := o.todo.filter fun x => x.lane != lane }
            match s.op? id with
            | some o => if o.todo.isEmpty then s.closeOp id else s
            | none => s
    | _ => s

/-- TEXTURE_RETURN (R256). -/
def execEvTextureReturn (op lane : Nat) (s : State) : Host.Outcome State Fault Refusal :=
  happen (fun s => s.textureLane op lane) s

end Sys2Proof.Machine
end

