-- ==== Sys2Proof/Machine/VectorFloat.lean ====
section
/-!
DEFINITION. Floating-point vector instructions, conversions, special functions and the tangent instructions (R53, R158 to
R171).
-/
namespace Sys2Proof.Machine

/-- A float instruction of one source. -/
def float1 (i : Instr) (d a : Nat) (f : Fenv → Nat → Operand → Fres) (s : State) : Host.Outcome State Fault Refusal :=
  simple i (fun s => s.floatLanes d fun e l j => f e s.d (s.operand e.F.width a l j)) s

/-- A float instruction of two sources. -/
def float2 (i : Instr) (d a b : Nat) (f : Fenv → Nat → Operand → Operand → Fres) (s : State) :
    Host.Outcome State Fault Refusal :=
  simple i (fun s => s.floatLanes d fun e l j =>
    f e s.d (s.operand e.F.width a l j) (s.operand e.F.width b l j)) s

/-- FADD. -/
def execFadd (d a b : Nat) (s : State) : Host.Outcome State Fault Refusal :=
  float2 (.fadd d a b) d a b (fun e => e.add false) s
/-- FSUB. -/
def execFsub (d a b : Nat) (s : State) : Host.Outcome State Fault Refusal :=
  float2 (.fsub d a b) d a b (fun e => e.add true) s
/-- FMUL. -/
def execFmul (d a b : Nat) (s : State) : Host.Outcome State Fault Refusal :=
  float2 (.fmul d a b) d a b (fun e => e.mul) s
/-- FFMA: the prior destination is the addend. -/
def execFfma (d a b : Nat) (s : State) : Host.Outcome State Fault Refusal :=
  simple (.ffma d a b) (fun s => s.floatLanes d fun e l j =>
    e.fma s.d (s.operand e.F.width a l j) (s.operand e.F.width b l j) (s.operand e.F.width d l j)) s
/-- FMIN. -/
def execFmin (d a b : Nat) (s : State) : Host.Outcome State Fault Refusal :=
  float2 (.fmin d a b) d a b (fun e => e.minMax false) s
/-- FMAX. -/
def execFmax (d a b : Nat) (s : State) : Host.Outcome State Fault Refusal :=
  float2 (.fmax d a b) d a b (fun e => e.minMax true) s
/-- FABS. -/
def execFabs (d a : Nat) (s : State) : Host.Outcome State Fault Refusal := float1 (.fabs d a) d a (fun e => e.abs) s
/-- FNEG. -/
def execFneg (d a : Nat) (s : State) : Host.Outcome State Fault Refusal := float1 (.fneg d a) d a (fun e => e.negate) s
/-- FRINT. -/
def execFrint (d a : Nat) (s : State) : Host.Outcome State Fault Refusal := float1 (.frint d a) d a (fun e => e.rint) s
/-- FSAT. -/
def execFsat (d a : Nat) (s : State) : Host.Outcome State Fault Refusal := float1 (.fsat d a) d a (fun e => e.unit) s

/-- FCMP (R159). -/
def execFcmp (d a b f : Nat) (s : State) : Host.Outcome State Fault Refusal :=
  simple (.fcmp d a b f) (fun s =>
    let et := mrEt s.mr
    let e := s.fenv (etFormat et) 0 0
    s.predLanes d fun l => (List.range (etCount et)).all fun j =>
      e.compare f (elem (etWidth et) j (s.srcV a l)) (elem (etWidth et) j (s.srcV b l))) s

/-- FCLASS (R160). -/
def execFclass (d a : Nat) (s : State) : Host.Outcome State Fault Refusal :=
  simple (.fclass d a) (fun s =>
    let et := mrEt s.mr
    let e := s.fenv (etFormat et) 0 0
    let w := etWidth et
    s.wordLanes d fun l => joinElems w ((List.range (etCount et)).map fun j => e.classOf (elem w j (s.srcV a l)))) s

/-! ## FCVT -/

/-- The destination of a format code: a float format, or an integer type (R161). -/
inductive CvtTo where
  | float (F : Format)
  | int (t : IntType)
deriving DecidableEq, Repr

/-- The destination formats of R161. -/
def cvtTo : Nat → CvtTo
  | 0 => .float f32 | 1 => .float f16 | 2 => .float bf16 | 3 => .float f8e4 | 4 => .float f8e5 | 5 => .float f6e3
  | 6 => .float f6e2 | 7 => .float f4 | 8 => .int ⟨true, 32⟩ | 9 => .int ⟨false, 32⟩ | 10 => .int ⟨true, 16⟩
  | 11 => .int ⟨false, 16⟩ | 12 => .int ⟨true, 8⟩ | _ => .int ⟨false, 8⟩

/-- Planes are converted to this destination (R162, R72). -/
def CvtTo.hasPlanes : CvtTo → Bool
  | .float F => F == f32 || F == f16 || F == bf16
  | .int _ => false

/-- One element converted (R53, R161, R162): x its exact value, ds its planes as values where they are carried; `fl` is the
environment of the destination format, with Rnd16 by the columns of R51. -/
def convertElem (goal : CvtTo) (fl : Fenv) (n : Nat) (x : Exact) (ds : List Exact) : Fres :=
  match goal with
  | .int t =>
    { val := t.convert fl.rm (fl.rnd 0) x, ds := List.replicate n 0
      flags := if ds.any (fun v => !v.isZero) then flagTD else 0 }
  | .float F =>
    if goal.hasPlanes then
      fl.result n x 0 fun k => fl.plane k (ds.getD k Exact.zero)
    else
      -- FTZ does not act on F8, F6 and F4 (R44)
      let v := F.pack fl.rm fl.sat (fl.rnd 0) x
      { val := v, ds := List.replicate n 0
        flags := if !fl.satChanges x && ds.any (fun v => !v.isZero) then flagTD else 0 }

/-- Slot t of a word replaced, slots w bits wide. -/
def putSlot (w t : Nat) (x : Word) (v : Nat) : Word :=
  BitVec.ofNat 32 (x.toNat - elem w t x * 2 ^ (w * t) + v % 2 ^ w * 2 ^ (w * t))

/-- Slots of a word replaced. -/
def putSlots (w : Nat) (x : Word) (vs : List (Nat × Nat)) : Word := vs.foldl (fun x tv => putSlot w tv.1 x tv.2) x

/-- FCVT (R161, R162). FTZ flushes a subnormal source whatever the destination (R44), where the rows of R53 for a narrow or
integer destination speak of no flush: DESIGN CHOICE (log entry 13), unsafe. -/
def execFcvt (d a b : Nat) (s : State) : Host.Outcome State Fault Refusal :=
  simple (.fcvt d a b) (fun s =>
    let et := mrEt s.mr
    let goal := cvtTo (b % 16)
    let sel := b / 16
    let sw := slotWidth (b % 16)
    let ns := etCount et
    let slots := 32 / sw
    let g := min ns slots
    let src := s.fenv (etFormat et) 0 0
    let dstF := match goal with | .float F => F | .int _ => f32
    let one := fun (l j : Nat) =>
      let e := (if g < ns then sel * g else 0) + j
      let t := (if g < slots then sel * g else 0) + j
      let code := elem (etWidth et) e (s.srcV a l)
      -- column t for the value and 4 + 4k + t for plane k (R51)
      let env : Fenv := { s.fenv dstF (s.globalId l) 0 with
        ftz := mrFtz s.mr && goal.hasPlanes
        rnd := fun col => s.rnd16 (s.globalId l) (if col = 0 then t else 2 * col + t) }
      let x := if etFloat et then src.value code else Exact.ofInt ((etInt et).value code)
      let ds := if etFloat et && s.carries then
          (List.range s.d).map fun k => src.value (elem (etWidth et) e (s.srcP a k l))
        else []
      (t, convertElem goal env s.d x ds)
    let all := fun (l : Nat) => (List.range g).map (one l)
    s.writeLanes
      (fun l => tangentWords s.d d l (putSlots sw (s.rdV d l) ((all l).map fun tr => (tr.1, tr.2.val)))
        (if s.carries then (List.range s.d).map fun k =>
            putSlots sw (s.rdVP d (k + 1) l) ((all l).map fun tr => (tr.1, tr.2.ds.getD k 0))
          else []))
      (fun l => if s.carries then laneFlags ((all l).map (·.2)) else 0)) s

/-! ## Special functions (R163) -/

/-- RCP. -/
def execRcp (d a : Nat) (s : State) : Host.Outcome State Fault Refusal :=
  float1 (.rcp d a) d a (fun e => e.function .rcp) s
/-- RSQ. -/
def execRsq (d a : Nat) (s : State) : Host.Outcome State Fault Refusal :=
  float1 (.rsq d a) d a (fun e => e.function .rsq) s
/-- SQRT. -/
def execSqrt (d a : Nat) (s : State) : Host.Outcome State Fault Refusal := float1 (.sqrt d a) d a (fun e => e.root) s
/-- EX2. -/
def execEx2 (d a : Nat) (s : State) : Host.Outcome State Fault Refusal :=
  float1 (.ex2 d a) d a (fun e => e.function .ex2) s
/-- LG2. -/
def execLg2 (d a : Nat) (s : State) : Host.Outcome State Fault Refusal :=
  float1 (.lg2 d a) d a (fun e => e.function .lg2) s
/-- SIN. -/
def execSin (d a : Nat) (s : State) : Host.Outcome State Fault Refusal :=
  float1 (.sin d a) d a (fun e => e.function .sin) s
/-- COS. -/
def execCos (d a : Nat) (s : State) : Host.Outcome State Fault Refusal :=
  float1 (.cos d a) d a (fun e => e.function .cos) s
/-- TANH. -/
def execTanh (d a : Nat) (s : State) : Host.Outcome State Fault Refusal :=
  float1 (.tanh d a) d a (fun e => e.function .tanh) s
/-- SIGM. -/
def execSigm (d a : Nat) (s : State) : Host.Outcome State Fault Refusal :=
  float1 (.sigm d a) d a (fun e => e.function .sigm) s

/-! ## Tangent instructions (R164 to R171) -/

/-- 1.0 in each element of a float ET (R165). -/
def onesWord (et : Nat) : Word := if et = 3 then 0x3C003C00 else if et = 4 then 0x3F803F80 else 0x3F800000

/-- TSEED (R165). The word of a is copied as it stands, whatever FTZ and SAT say (R44, R146): DESIGN CHOICE (log entry 13), unsafe. -/
def execTseed (d a f : Nat) (s : State) : Host.Outcome State Fault Refusal :=
  simple (.tseed d a f) (fun s => s.writeLanes
    (fun l => tangentWords s.d d l (s.srcV a l) ((List.range s.d).map fun k => if k = f then onesWord (mrEt s.mr) else 0))
    (fun _ => 0)) s

/-- TGET. -/
def execTget (d a f : Nat) (s : State) : Host.Outcome State Fault Refusal :=
  simple (.tget d a f) (fun s => s.wordLanes d fun l => s.srcP a f l) s

/-- TSET. -/
def execTset (d a f : Nat) (s : State) : Host.Outcome State Fault Refusal :=
  simple (.tset d a f) (fun s => s.writeLanes (fun l => [(vkey d (f + 1) l, s.srcV a l)]) (fun _ => 0)) s

/-- TCLR. -/
def execTclr (d : Nat) (s : State) : Host.Outcome State Fault Refusal :=
  simple (.tclr d) (fun s => s.writeLanes
    (fun l => (List.range s.d).map fun k => (vkey d (k + 1) l, 0)) (fun _ => 0)) s

/-- TLIN's chain from plane k on: whether SAT changed a step, and the value (R169). -/
def linChain (e : Fenv) (planes : Nat → Nat) (deltas : Nat → Nat) : Nat → Nat → Bool → Nat → Bool × Nat
  | 0, _, c, r => (c, r)
  | n + 1, k, c, r =>
    let p := planeMul (e.value (planes k)) (e.value (deltas k))
    -- a strong zero leaves the other term exactly (R71)
    let x := if (e.value (planes k)).isZero then e.value r else p.add e.rm (e.value r)
    linChain e planes deltas n (k + 1) (c || e.satChanges x) (e.write x)

/-- TLIN (R169). The planes that it copies from a are as they stand, none flushed and a −0 among them kept (R44, R71): DESIGN CHOICE
(log entry 13), unsafe. -/
def execTlin (d a b : Nat) (s : State) : Host.Outcome State Fault Refusal :=
  simple (.tlin d a b) (fun s =>
    let et := mrEt s.mr
    let w := etWidth et
    let one := fun (l j : Nat) =>
      linChain (s.fenv (etFormat et) (s.globalId l) j) (fun k => elem w j (s.srcP a k l))
        (fun k => elem w j (s.rdS (b + k))) s.d 0 false (elem w j (s.srcV a l))
    s.writeLanes
      (fun l =>
        let rs := (List.range (etCount et)).map (one l)
        -- a value that SAT changed has zero planes (R74)
        tangentWords s.d d l (joinElems w (rs.map (·.2)))
          ((s.copyPlanes a l).map fun p =>
            joinElems w ((List.range rs.length).map fun j => if (rs.getD j (false, 0)).1 then 0 else elem w j p)))
      (fun _ => 0)) s

/-- A footprint √((du × W)² + (dv × H)²), each step in F32 under RNE, FTZ as MR says (R170). An infinite partial
with a W or H of 0 gives ∞ × 0, a NaN, where the entry says in words that an infinite partial gives +∞: DESIGN CHOICE (log entry 13),
unsafe. -/
def footLen (e : Fenv) (du dv w h : Nat) : Nat :=
  let mul := fun (x y : Nat) => e.write ((e.value x).mul (e.value y))
  let x := mul du w
  let y := mul dv h
  e.write (e.value (e.write ((e.value (mul x x)).add .rne (e.value (mul y y))))).sqrt

/-- TFOOT (R170). -/
def execTfoot (d a b : Nat) (s : State) : Host.Outcome State Fault Refusal :=
  simple (.tfoot d a b) (fun s =>
    match s.me.sx, s.me.sy with
    | some px, some py =>
      let wh := (s.rdS b).toNat
      let w := ne32 (Exact.ofInt (wh % 65536 : Nat))
      let h := ne32 (Exact.ofInt (wh / 65536 : Nat))
      let e : Fenv := { F := f32, rm := .rne, sat := false, ftz := mrFtz s.mr, te := false, rnd := fun _ => 0 }
      let at' := fun (r p l : Nat) => (s.rdVP r (p + 1) l).toNat
      s.wordLanes d fun l =>
        let lx := footLen e (at' a px l) (at' (a + 1) px l) w h
        let ly := footLen e (at' a py l) (at' (a + 1) py l) w h
        let big := if f32.isNan lx || f32.isNan ly then f32.nan else if lt32 lx ly then ly else lx
        BitVec.ofNat 32 (({ e with sat := mrSat s.mr } : Fenv).function .lg2 0 { val := big, ds := [] }).val
    | _, _ => s.writeLanes (fun l => plainWords s.d d l 0) (fun _ => flagTD)) s

/-- TFLAG (R171). -/
def execTflag (d a : Nat) (s : State) : Host.Outcome State Fault Refusal :=
  simple (.tflag d a) (fun s => s.predLanes d fun l => (s.flagsOf s.me l).toNat &&& a != 0) s

end Sys2Proof.Machine
end

