-- ==== Sys2Proof/Machine/VectorInt.lean ====
section
/-!
DEFINITION. Integer and logical vector instructions (R150 to R157).
-/
namespace Sys2Proof.Machine

/-- An integer instruction of two sources. -/
def int2 (i : Instr) (d a b : Nat) (clamps : Bool) (f : IntType → Int → Int → Int) (s : State) :
    Host.Outcome State Fault Refusal :=
  simple i (fun s => s.intLanes d clamps fun t l j => f t (s.intElem t a l j) (s.intElem t b l j)) s

/-- IADD. -/
def execIadd (d a b : Nat) (s : State) : Host.Outcome State Fault Refusal :=
  int2 (.iadd d a b) d a b true (fun _ x y => x + y) s
/-- ISUB. -/
def execIsub (d a b : Nat) (s : State) : Host.Outcome State Fault Refusal :=
  int2 (.isub d a b) d a b true (fun _ x y => x - y) s
/-- IMUL. -/
def execImul (d a b : Nat) (s : State) : Host.Outcome State Fault Refusal :=
  int2 (.imul d a b) d a b true (fun _ x y => x * y) s
/-- IMULH: bits 2w−1:w of the exact product. -/
def execImulh (d a b : Nat) (s : State) : Host.Outcome State Fault Refusal :=
  int2 (.imulh d a b) d a b false (fun t x y => x * y / 2 ^ t.width) s
/-- IMAD: the prior destination is a source. -/
def execImad (d a b : Nat) (s : State) : Host.Outcome State Fault Refusal :=
  simple (.imad d a b) (fun s => s.intLanes d true fun t l j =>
    s.intElem t a l j * s.intElem t b l j + s.intElem t d l j) s
/-- IMIN. -/
def execImin (d a b : Nat) (s : State) : Host.Outcome State Fault Refusal :=
  int2 (.imin d a b) d a b false (fun _ x y => min x y) s
/-- IMAX. -/
def execImax (d a b : Nat) (s : State) : Host.Outcome State Fault Refusal :=
  int2 (.imax d a b) d a b false (fun _ x y => max x y) s
/-- IABS. -/
def execIabs (d a : Nat) (s : State) : Host.Outcome State Fault Refusal :=
  simple (.iabs d a) (fun s => s.intLanes d true fun t l j => (s.intElem t a l j).natAbs) s

/-- A whole-word instruction of two sources. -/
def word2 (i : Instr) (d a b : Nat) (f : Word → Word → Word) (s : State) : Host.Outcome State Fault Refusal :=
  simple i (fun s => s.wordLanes d fun l => f (s.srcV a l) (s.srcV b l)) s

/-- A whole-word instruction of one source. -/
def word1 (i : Instr) (d a : Nat) (f : Word → Word) (s : State) : Host.Outcome State Fault Refusal :=
  simple i (fun s => s.wordLanes d fun l => f (s.srcV a l)) s

/-- AND. -/
def execVand (d a b : Nat) (s : State) : Host.Outcome State Fault Refusal := word2 (.vand d a b) d a b (· &&& ·) s
/-- OR. -/
def execVor (d a b : Nat) (s : State) : Host.Outcome State Fault Refusal := word2 (.vor d a b) d a b (· ||| ·) s
/-- XOR. -/
def execVxor (d a b : Nat) (s : State) : Host.Outcome State Fault Refusal := word2 (.vxor d a b) d a b (· ^^^ ·) s
/-- ANDN. -/
def execVandn (d a b : Nat) (s : State) : Host.Outcome State Fault Refusal :=
  word2 (.vandn d a b) d a b (fun x y => x &&& ~~~y) s

/-- The shifts of a w-bit element by an unsigned count (R150). -/
def shlElem (w x c : Nat) : Nat := if w ≤ c then 0 else x * 2 ^ c % 2 ^ w
def shrElem (w x c : Nat) : Nat := if w ≤ c then 0 else x / 2 ^ c
def sarElem (w x c : Nat) : Nat := wrap w ((⟨true, w⟩ : IntType).value x / 2 ^ min c w)

/-- A shift, with its count from a field. -/
def shiftLanes (i : Instr) (d a b : Nat) (f : Nat → Nat → Nat → Nat) (s : State) : Host.Outcome State Fault Refusal :=
  simple i (fun s => s.intLanes d false fun t l j => f t.width (s.codeElem t a l j) (s.codeElem t b l j)) s

/-- A shift, with its count from the immediate (R145, R157). -/
def shiftImm (i : Instr) (d a imm : Nat) (f : Nat → Nat → Nat → Nat) (s : State) : Host.Outcome State Fault Refusal :=
  simple i (fun s => s.intLanes d false fun t l j => f t.width (s.codeElem t a l j) ((imm10 imm).toNat % 2 ^ t.width)) s

/-- SHL. -/
def execShl (d a b : Nat) (s : State) : Host.Outcome State Fault Refusal := shiftLanes (.shl d a b) d a b shlElem s
/-- SHR. -/
def execShr (d a b : Nat) (s : State) : Host.Outcome State Fault Refusal := shiftLanes (.shr d a b) d a b shrElem s
/-- SAR. -/
def execSar (d a b : Nat) (s : State) : Host.Outcome State Fault Refusal := shiftLanes (.sar d a b) d a b sarElem s

/-- The number of 1 bits of a word. -/
def onesOf (x : Word) : Word := BitVec.ofNat 32 (popcount x)
/-- The number of zeros above the highest 1 bit. -/
def zerosAbove (x : Word) : Word := if x = 0 then 32 else BitVec.ofNat 32 (31 - Nat.log2 x.toNat)
/-- The word with its bits in reverse. -/
def reversed (x : Word) : Word := maskBy fun i => x.getLsbD (31 - i)

/-- POPC. -/
def execPopc (d a : Nat) (s : State) : Host.Outcome State Fault Refusal := word1 (.popc d a) d a onesOf s
/-- CLZ. -/
def execClz (d a : Nat) (s : State) : Host.Outcome State Fault Refusal := word1 (.clz d a) d a zerosAbove s
/-- BREV. -/
def execBrev (d a : Nat) (s : State) : Host.Outcome State Fault Refusal := word1 (.brev d a) d a reversed s

/-- The position and the end of the field of BFE and BFI (R151). -/
def fieldPos (b : Word) : Nat := b.toNat % 32
def fieldEnd (b : Word) : Nat := min (fieldPos b + b.toNat / 256 % 64) 32

/-- BFE's result (R151). -/
def fieldOut (x b : Word) : Word :=
  let pos := fieldPos b
  let w := fieldEnd b - pos
  let v := x.toNat / 2 ^ pos % 2 ^ w
  if b.getLsbD 15 && decide (0 < w) then BitVec.ofInt 32 ((⟨true, w⟩ : IntType).value v) else BitVec.ofNat 32 v

/-- BFI's result (R151). -/
def fieldIn (x b prior : Word) : Word :=
  let pos := fieldPos b
  let m := maskBy fun i => decide (pos ≤ i) && decide (i < fieldEnd b)
  (prior &&& ~~~m) ||| (x <<< pos &&& m)

/-- BFE. -/
def execBfe (d a b : Nat) (s : State) : Host.Outcome State Fault Refusal := word2 (.bfe d a b) d a b fieldOut s
/-- BFI: the prior destination is a source. -/
def execBfi (d a b : Nat) (s : State) : Host.Outcome State Fault Refusal :=
  simple (.bfi d a b) (fun s => s.wordLanes d fun l => fieldIn (s.srcV a l) (s.srcV b l) (s.rdV d l)) s

/-- ICMP's condition on two integers (R81). -/
def intCond (f : Nat) (x y : Int) : Bool :=
  match f with
  | 0 => x == y
  | 1 => x != y
  | 2 => decide (x < y)
  | 3 => decide (x ≤ y)
  | 4 => decide (y < x)
  | _ => decide (y ≤ x)

/-- ICMP (R152): every element of the lane must meet the condition. -/
def execIcmp (d a b f : Nat) (s : State) : Host.Outcome State Fault Refusal :=
  simple (.icmp d a b f) (fun s =>
    let t := etInt (mrEt s.mr)
    s.predLanes d fun l => (List.range (32 / t.width)).all fun j => intCond f (s.intElem t a l j) (s.intElem t b l j)) s

/-- A data move in the active lanes: words as they stand, planes under TE (R153, R73). -/
def moveLanes (i : Instr) (d : Nat) (src : State → Nat → Nat) (s : State) : Host.Outcome State Fault Refusal :=
  simple i (fun s => s.copyLanes d (fun l => s.srcV (src s l) l) (fun l => s.copyPlanes (src s l) l)) s

/-- SEL (R153). -/
def execSel (d a b f : Nat) (s : State) : Host.Outcome State Fault Refusal :=
  moveLanes (.sel d a b f) d (fun s l => if (s.rdP f).getLsbD l then a else b) s

/-- MOV (R153). -/
def execMov (d a : Nat) (s : State) : Host.Outcome State Fault Refusal := moveLanes (.mov d a) d (fun _ _ => a) s

/-- MOVI (R154). -/
def execMovi (d imm : Nat) (s : State) : Host.Outcome State Fault Refusal :=
  simple (.movi d imm) (fun s => s.wordLanes d fun _ => imm10 imm) s

/-- LEA (R155). -/
def execLea (d a b f : Nat) (s : State) : Host.Outcome State Fault Refusal :=
  word2 (.lea d a b f) d a b (fun x y => x + (y <<< f)) s

/-- PLOP (R156). -/
def execPlop (d a b f : Nat) (s : State) : Host.Outcome State Fault Refusal :=
  simple (.plop d a b f) (fun s =>
    s.predLanes d fun l => predOp f ((s.rdP a).getLsbD l) ((s.rdP b).getLsbD l)) s

/-- IADD, immediate (R157). -/
def execIaddImm (d a imm : Nat) (s : State) : Host.Outcome State Fault Refusal :=
  simple (.iaddImm d a imm) (fun s => s.intLanes d true fun t l j =>
    s.intElem t a l j + t.value ((imm10 imm).toNat % 2 ^ t.width)) s
/-- AND, immediate. -/
def execAndImm (d a imm : Nat) (s : State) : Host.Outcome State Fault Refusal :=
  word1 (.andImm d a imm) d a (· &&& imm10 imm) s
/-- OR, immediate. -/
def execOrImm (d a imm : Nat) (s : State) : Host.Outcome State Fault Refusal :=
  word1 (.orImm d a imm) d a (· ||| imm10 imm) s
/-- SHL, immediate. -/
def execShlImm (d a imm : Nat) (s : State) : Host.Outcome State Fault Refusal :=
  shiftImm (.shlImm d a imm) d a imm shlElem s
/-- SHR, immediate. -/
def execShrImm (d a imm : Nat) (s : State) : Host.Outcome State Fault Refusal :=
  shiftImm (.shrImm d a imm) d a imm shrElem s
/-- SAR, immediate. -/
def execSarImm (d a imm : Nat) (s : State) : Host.Outcome State Fault Refusal :=
  shiftImm (.sarImm d a imm) d a imm sarElem s

end Sys2Proof.Machine
end

