-- ==== Sys2Proof/Machine/Dispatch.lean ====
section
/-!
DEFINITION. Every instruction, micro-operation and event to its meaning: one arm each.
-/
namespace Sys2Proof.Machine

/-- The meaning of an instruction, micro-operation or event. -/
def exec (i : Instr) (s : State) : Host.Outcome State Fault Refusal :=
  match i with
  | .setm m => Sys2Proof.Machine.execSetm m s
  | .bra p n tgt rcv => Sys2Proof.Machine.execBra p n tgt rcv s
  | .bru p n tgt rcv => Sys2Proof.Machine.execBru p n tgt rcv s
  | .jmps a => Sys2Proof.Machine.execJmps a s
  | .call p n tgt => Sys2Proof.Machine.execCall p n tgt s
  | .calls a => Sys2Proof.Machine.execCalls a s
  | .sync rcv => Sys2Proof.Machine.execSync rcv s
  | .trap imm => Sys2Proof.Machine.execTrap imm s
  | .ppt imm => Sys2Proof.Machine.execPpt imm s
  | .rscope imm => Sys2Proof.Machine.execRscope imm s
  | .execr d => Sys2Proof.Machine.execExecr d s
  | .execw a => Sys2Proof.Machine.execExecw a s
  | .sprr d imm => Sys2Proof.Machine.execSprr d imm s
  | .sprw a imm => Sys2Proof.Machine.execSprw a imm s
  | .clkr d => Sys2Proof.Machine.execClkr d s
  | .ufirst d a => Sys2Proof.Machine.execUfirst d a s
  | .uchk a => Sys2Proof.Machine.execUchk a s
  | .ulane d a imm => Sys2Proof.Machine.execUlane d a imm s
  | .sadd d a b => Sys2Proof.Machine.execSadd d a b s
  | .ssub d a b => Sys2Proof.Machine.execSsub d a b s
  | .smul d a b => Sys2Proof.Machine.execSmul d a b s
  | .sand d a b => Sys2Proof.Machine.execSand d a b s
  | .sor d a b => Sys2Proof.Machine.execSor d a b s
  | .sxor d a b => Sys2Proof.Machine.execSxor d a b s
  | .sshl d a b => Sys2Proof.Machine.execSshl d a b s
  | .sshr d a b => Sys2Proof.Machine.execSshr d a b s
  | .ssar d a b => Sys2Proof.Machine.execSsar d a b s
  | .smov d a => Sys2Proof.Machine.execSmov d a s
  | .smulh d a b f => Sys2Proof.Machine.execSmulh d a b f s
  | .smin d a b f => Sys2Proof.Machine.execSmin d a b f s
  | .smax d a b f => Sys2Proof.Machine.execSmax d a b f s
  | .scmp d a b f => Sys2Proof.Machine.execScmp d a b f s
  | .qop d a b f => Sys2Proof.Machine.execQop d a b f s
  | .smovi d imm => Sys2Proof.Machine.execSmovi d imm s
  | .smovh d imm => Sys2Proof.Machine.execSmovh d imm s
  | .sld d a k la => Sys2Proof.Machine.execSld d a k la s
  | .sst d a k la => Sys2Proof.Machine.execSst d a k la s
  | .iadd d a b => Sys2Proof.Machine.execIadd d a b s
  | .isub d a b => Sys2Proof.Machine.execIsub d a b s
  | .imul d a b => Sys2Proof.Machine.execImul d a b s
  | .imulh d a b => Sys2Proof.Machine.execImulh d a b s
  | .imad d a b => Sys2Proof.Machine.execImad d a b s
  | .imin d a b => Sys2Proof.Machine.execImin d a b s
  | .imax d a b => Sys2Proof.Machine.execImax d a b s
  | .iabs d a => Sys2Proof.Machine.execIabs d a s
  | .vand d a b => Sys2Proof.Machine.execVand d a b s
  | .vor d a b => Sys2Proof.Machine.execVor d a b s
  | .vxor d a b => Sys2Proof.Machine.execVxor d a b s
  | .vandn d a b => Sys2Proof.Machine.execVandn d a b s
  | .shl d a b => Sys2Proof.Machine.execShl d a b s
  | .shr d a b => Sys2Proof.Machine.execShr d a b s
  | .sar d a b => Sys2Proof.Machine.execSar d a b s
  | .popc d a => Sys2Proof.Machine.execPopc d a s
  | .clz d a => Sys2Proof.Machine.execClz d a s
  | .brev d a => Sys2Proof.Machine.execBrev d a s
  | .bfe d a b => Sys2Proof.Machine.execBfe d a b s
  | .bfi d a b => Sys2Proof.Machine.execBfi d a b s
  | .icmp d a b f => Sys2Proof.Machine.execIcmp d a b f s
  | .sel d a b f => Sys2Proof.Machine.execSel d a b f s
  | .mov d a => Sys2Proof.Machine.execMov d a s
  | .movi d imm => Sys2Proof.Machine.execMovi d imm s
  | .lea d a b f => Sys2Proof.Machine.execLea d a b f s
  | .plop d a b f => Sys2Proof.Machine.execPlop d a b f s
  | .iaddImm d a imm => Sys2Proof.Machine.execIaddImm d a imm s
  | .andImm d a imm => Sys2Proof.Machine.execAndImm d a imm s
  | .orImm d a imm => Sys2Proof.Machine.execOrImm d a imm s
  | .shlImm d a imm => Sys2Proof.Machine.execShlImm d a imm s
  | .shrImm d a imm => Sys2Proof.Machine.execShrImm d a imm s
  | .sarImm d a imm => Sys2Proof.Machine.execSarImm d a imm s
  | .fadd d a b => Sys2Proof.Machine.execFadd d a b s
  | .fsub d a b => Sys2Proof.Machine.execFsub d a b s
  | .fmul d a b => Sys2Proof.Machine.execFmul d a b s
  | .ffma d a b => Sys2Proof.Machine.execFfma d a b s
  | .fmin d a b => Sys2Proof.Machine.execFmin d a b s
  | .fmax d a b => Sys2Proof.Machine.execFmax d a b s
  | .fabs d a => Sys2Proof.Machine.execFabs d a s
  | .fneg d a => Sys2Proof.Machine.execFneg d a s
  | .fcmp d a b f => Sys2Proof.Machine.execFcmp d a b f s
  | .fcvt d a b => Sys2Proof.Machine.execFcvt d a b s
  | .frint d a => Sys2Proof.Machine.execFrint d a s
  | .fclass d a => Sys2Proof.Machine.execFclass d a s
  | .fsat d a => Sys2Proof.Machine.execFsat d a s
  | .rcp d a => Sys2Proof.Machine.execRcp d a s
  | .rsq d a => Sys2Proof.Machine.execRsq d a s
  | .sqrt d a => Sys2Proof.Machine.execSqrt d a s
  | .ex2 d a => Sys2Proof.Machine.execEx2 d a s
  | .lg2 d a => Sys2Proof.Machine.execLg2 d a s
  | .sin d a => Sys2Proof.Machine.execSin d a s
  | .cos d a => Sys2Proof.Machine.execCos d a s
  | .tanh d a => Sys2Proof.Machine.execTanh d a s
  | .sigm d a => Sys2Proof.Machine.execSigm d a s
  | .tseed d a f => Sys2Proof.Machine.execTseed d a f s
  | .tget d a f => Sys2Proof.Machine.execTget d a f s
  | .tset d a f => Sys2Proof.Machine.execTset d a f s
  | .tclr d => Sys2Proof.Machine.execTclr d s
  | .tlin d a b => Sys2Proof.Machine.execTlin d a b s
  | .tfoot d a b => Sys2Proof.Machine.execTfoot d a b s
  | .tflag d a => Sys2Proof.Machine.execTflag d a s
  | .shfl d a b f => Sys2Proof.Machine.execShfl d a b f s
  | .ballot d a => Sys2Proof.Machine.execBallot d a s
  | .eqmask d a => Sys2Proof.Machine.execEqmask d a s
  | .redu d a f => Sys2Proof.Machine.execRedu d a f s
  | .minidx d a f => Sys2Proof.Machine.execMinidx d a f s
  | .scan d a b f => Sys2Proof.Machine.execScan d a b f s
  | .welf d a b => Sys2Proof.Machine.execWelf d a b s
  | .smxm d a b => Sys2Proof.Machine.execSmxm d a b s
  | .smxn d a b f => Sys2Proof.Machine.execSmxn d a b f s
  | .ldU8 d a k la => Sys2Proof.Machine.execLdU8 d a k la s
  | .ldS8 d a k la => Sys2Proof.Machine.execLdS8 d a k la s
  | .ldU16 d a k la => Sys2Proof.Machine.execLdU16 d a k la s
  | .ldS16 d a k la => Sys2Proof.Machine.execLdS16 d a k la s
  | .ldB32 d a k la => Sys2Proof.Machine.execLdB32 d a k la s
  | .ldB64 d a k la => Sys2Proof.Machine.execLdB64 d a k la s
  | .ldB128 d a k la => Sys2Proof.Machine.execLdB128 d a k la s
  | .stB8 d a k la => Sys2Proof.Machine.execStB8 d a k la s
  | .stB16 d a k la => Sys2Proof.Machine.execStB16 d a k la s
  | .stB32 d a k la => Sys2Proof.Machine.execStB32 d a k la s
  | .stB64 d a k la => Sys2Proof.Machine.execStB64 d a k la s
  | .stB128 d a k la => Sys2Proof.Machine.execStB128 d a k la s
  | .ldt d a k la => Sys2Proof.Machine.execLdt d a k la s
  | .stt d a k la => Sys2Proof.Machine.execStt d a k la s
  | .prf a k la => Sys2Proof.Machine.execPrf a k la s
  | .atom d a k la => Sys2Proof.Machine.execAtom d a k la s
  | .red d a k la => Sys2Proof.Machine.execRed d a k la s
  | .fence rel acq scope => Sys2Proof.Machine.execFence rel acq scope s
  | .xfence m => Sys2Proof.Machine.execXfence m s
  | .waitp a f => Sys2Proof.Machine.execWaitp a f s
  | .bar a b => Sys2Proof.Machine.execBar a b s
  | .bara d a b => Sys2Proof.Machine.execBara d a b s
  | .barw a b => Sys2Proof.Machine.execBarw a b s
  | .cbwait a b => Sys2Proof.Machine.execCbwait a b s
  | .ldcb a b => Sys2Proof.Machine.execLdcb a b s
  | .marm a k la => Sys2Proof.Machine.execMarm a k la s
  | .mwait a => Sys2Proof.Machine.execMwait a s
  | .txb d => Sys2Proof.Machine.execTxb d s
  | .txa tgt => Sys2Proof.Machine.execTxa tgt s
  | .skid d h la => Sys2Proof.Machine.execSkid d h la s
  | .skidg d h a la => Sys2Proof.Machine.execSkidg d h a la s
  | .kmma d h a la => Sys2Proof.Machine.execKmma d h a la s
  | .kmmaPair d h a la => Sys2Proof.Machine.execKmmaPair d h a la s
  | .kdrn d h a la => Sys2Proof.Machine.execKdrn d h a la s
  | .kzero d la => Sys2Proof.Machine.execKzero d la s
  | .kstat d a la => Sys2Proof.Machine.execKstat d a la s
  | .cruz d h a la => Sys2Proof.Machine.execCruz d h a la s
  | .crget d a la => Sys2Proof.Machine.execCrget d a la s
  | .crld d h la => Sys2Proof.Machine.execCrld d h la s
  | .cnop d a la => Sys2Proof.Machine.execCnop d a la s
  | .cnad d a la => Sys2Proof.Machine.execCnad d a la s
  | .cnrd d a la => Sys2Proof.Machine.execCnrd d a la s
  | .cncl d a la => Sys2Proof.Machine.execCncl d a la s
  | .cnaj d h a la => Sys2Proof.Machine.execCnaj d h a la s
  | .sortk d h a la => Sys2Proof.Machine.execSortk d h a la s
  | .ralc d h a la => Sys2Proof.Machine.execRalc d h a la s
  | .rcmt h a la => Sys2Proof.Machine.execRcmt h a la s
  | .rget d h la => Sys2Proof.Machine.execRget d h la s
  | .prim h a la => Sys2Proof.Machine.execPrim h a la s
  | .tex d h a la => Sys2Proof.Machine.execTex d h a la s
  | .evIllegalWord w => Sys2Proof.Machine.execEvIllegalWord w s
  | .evMemoryAccessPerform op => Sys2Proof.Machine.execEvMemoryAccessPerform op s
  | .evLoadSectorReturn op sector => Sys2Proof.Machine.execEvLoadSectorReturn op sector s
  | .evTranslationWalk ctx va => Sys2Proof.Machine.execEvTranslationWalk ctx va s
  | .evReleaseWindow op => Sys2Proof.Machine.execEvReleaseWindow op s
  | .evKerfFetch op => Sys2Proof.Machine.execEvKerfFetch op s
  | .evKerfSlot op => Sys2Proof.Machine.execEvKerfSlot op s
  | .evKerfPromotion op => Sys2Proof.Machine.execEvKerfPromotion op s
  | .evKdrnDrain op => Sys2Proof.Machine.execEvKdrnDrain op s
  | .evKzeroClear op => Sys2Proof.Machine.execEvKzeroClear op s
  | .evKstatReport op => Sys2Proof.Machine.execEvKstatReport op s
  | .evSkidderCopy op => Sys2Proof.Machine.execEvSkidderCopy op s
  | .evCanopyLaneStep op => Sys2Proof.Machine.execEvCanopyLaneStep op s
  | .uJmp tgt => Sys2Proof.Machine.execUJmp tgt s
  | .uJz c tgt imm => Sys2Proof.Machine.execUJz c tgt imm s
  | .uJnz c tgt imm => Sys2Proof.Machine.execUJnz c tgt imm s
  | .uLeaf tgt imm => Sys2Proof.Machine.execULeaf tgt imm s
  | .uHitc c => Sys2Proof.Machine.execUHitc c s
  | .uSetf imm => Sys2Proof.Machine.execUSetf imm s
  | .uClrf imm => Sys2Proof.Machine.execUClrf imm s
  | .uCntr c imm => Sys2Proof.Machine.execUCntr c imm s
  | .uFaultx imm => Sys2Proof.Machine.execUFaultx imm s
  | .evRayTakeUp core ctx => Sys2Proof.Machine.execEvRayTakeUp core ctx s
  | .evRayDelivery ray => Sys2Proof.Machine.execEvRayDelivery ray s
  | .evRasterSampleUpdate op => Sys2Proof.Machine.execEvRasterSampleUpdate op s
  | .evTextureReturn op lane => Sys2Proof.Machine.execEvTextureReturn op lane s
  | .evRalcServe op => Sys2Proof.Machine.execEvRalcServe op s
  | .evRalcStallExpiry op => Sys2Proof.Machine.execEvRalcStallExpiry op s
  | .evBatchTimeout landing => Sys2Proof.Machine.execEvBatchTimeout landing s
  | .evRecordReturn team => Sys2Proof.Machine.execEvRecordReturn team s
  | .evRscopePressure core => Sys2Proof.Machine.execEvRscopePressure core s
  | .evScopeServe core => Sys2Proof.Machine.execEvScopeServe core s
  | .evYieldExpiry gs => Sys2Proof.Machine.execEvYieldExpiry gs s
  | .evWatchdog gs => Sys2Proof.Machine.execEvWatchdog gs s
  | .evFullSaveEscalation gs => Sys2Proof.Machine.execEvFullSaveEscalation gs s
  | .evTeamSave team => Sys2Proof.Machine.execEvTeamSave team s
  | .evTeamRestore team => Sys2Proof.Machine.execEvTeamRestore team s
  | .evTeamPlacement grid => Sys2Proof.Machine.execEvTeamPlacement grid s
  | .evLaunchPacket queue => Sys2Proof.Machine.execEvLaunchPacket queue s
  | .evLaunchCompletion grid => Sys2Proof.Machine.execEvLaunchCompletion grid s
  | .evLqbell queue => Sys2Proof.Machine.execEvLqbell queue s
  | .evPreemptRequest value => Sys2Proof.Machine.execEvPreemptRequest value s
  | .evPreemptCancel value => Sys2Proof.Machine.execEvPreemptCancel value s
  | .evTkill value => Sys2Proof.Machine.execEvTkill value s
  | .evFaultResponse seq => Sys2Proof.Machine.execEvFaultResponse seq s
  | .evFaultResponseFail seq => Sys2Proof.Machine.execEvFaultResponseFail seq s
  | .evFsetWrite cluster value => Sys2Proof.Machine.execEvFsetWrite cluster value s
  | .evFrequencyChange cluster => Sys2Proof.Machine.execEvFrequencyChange cluster s
  | .evScrub addr kind => Sys2Proof.Machine.execEvScrub addr kind s
  | .evCoreStateUncorrectable gs pc src => Sys2Proof.Machine.execEvCoreStateUncorrectable gs pc src s
  | .evDieReady die ok => Sys2Proof.Machine.execEvDieReady die ok s
  | .evStackReady stack ok => Sys2Proof.Machine.execEvStackReady stack ok s
  | .evPortReady port ok => Sys2Proof.Machine.execEvPortReady port ok s
  | .evFirmwareUpdate ecdsa lms version => Sys2Proof.Machine.execEvFirmwareUpdate ecdsa lms version s
  | .evPtpSync offset => Sys2Proof.Machine.execEvPtpSync offset s
  | .evPortDown port => Sys2Proof.Machine.execEvPortDown port s
  | .evHostCxlMemWrite addr bytes => Sys2Proof.Machine.execEvHostCxlMemWrite addr bytes s
  | .evRegisterWrite off value size => Sys2Proof.Machine.execEvRegisterWrite off value size s
  | .evIllegalMicroword w => Sys2Proof.Machine.execEvIllegalMicroword w s
  | .evPeerMemoryAccess addr wr bytes => Sys2Proof.Machine.execEvPeerMemoryAccess addr wr bytes s
  | .nop => Sys2Proof.Machine.execNop s
  | .ret => Sys2Proof.Machine.execRet s
  | .exit => Sys2Proof.Machine.execExit s
  | .tret => Sys2Proof.Machine.execTret s
  | .yield => Sys2Proof.Machine.execYield s
  | .rsend => Sys2Proof.Machine.execRsend s
  | .cbar => Sys2Proof.Machine.execCbar s
  | .txc => Sys2Proof.Machine.execTxc s
  | .uNload => Sys2Proof.Machine.execUNload s
  | .uBoxn => Sys2Proof.Machine.execUBoxn s
  | .uTrin => Sys2Proof.Machine.execUTrin s
  | .uSphn => Sys2Proof.Machine.execUSphn s
  | .uOrdn => Sys2Proof.Machine.execUOrdn s
  | .uPushn => Sys2Proof.Machine.execUPushn s
  | .uPopn => Sys2Proof.Machine.execUPopn s
  | .uNextp => Sys2Proof.Machine.execUNextp s
  | .uAnyh => Sys2Proof.Machine.execUAnyh s
  | .uXfrm => Sys2Proof.Machine.execUXfrm s
  | .uXret => Sys2Proof.Machine.execUXret s
  | .uMiss => Sys2Proof.Machine.execUMiss s
  | .uDone => Sys2Proof.Machine.execUDone s
  | .evPrcntRead => Sys2Proof.Machine.execEvPrcntRead s
  | .evTlbInvalidateVa => Sys2Proof.Machine.execEvTlbInvalidateVa s
  | .evTlbInvalidateContext => Sys2Proof.Machine.execEvTlbInvalidateContext s
  | .evTlbInvalidateAll => Sys2Proof.Machine.execEvTlbInvalidateAll s
  | .evTlbInvalidateDone => Sys2Proof.Machine.execEvTlbInvalidateDone s
  | .evIcacheInvalidateVa => Sys2Proof.Machine.execEvIcacheInvalidateVa s
  | .evIcacheInvalidateContext => Sys2Proof.Machine.execEvIcacheInvalidateContext s
  | .evIcacheInvalidateAll => Sys2Proof.Machine.execEvIcacheInvalidateAll s
  | .evIcacheInvalidateDone => Sys2Proof.Machine.execEvIcacheInvalidateDone s
  | .evFaultQueueEntry => Sys2Proof.Machine.execEvFaultQueueEntry s
  | .evFaultQueueDisable => Sys2Proof.Machine.execEvFaultQueueDisable s
  | .evCecntClear => Sys2Proof.Machine.execEvCecntClear s
  | .evUecntClear => Sys2Proof.Machine.execEvUecntClear s
  | .evBudgetWindow => Sys2Proof.Machine.execEvBudgetWindow s
  | .evProtectiveTrip => Sys2Proof.Machine.execEvProtectiveTrip s
  | .evDeviceReset => Sys2Proof.Machine.execEvDeviceReset s

end Sys2Proof.Machine
end

