-- ==== Sys2Proof/Machine/Turn.lean ====
section
/-!
DEFINITION. What the device may do next and how it does it: which fragment a pipe issues (R292 to R295, R395), what a fetch brings
(R112, R435), what may happen beside issue, and the passing of time (R458, R463).
-/
namespace Sys2Proof.Machine

/-! ## Issue -/

/-- A fragment about to issue. -/
inductive Ahead where
  /-- It issues an instruction from a state in which it is selected. -/
  | at (i : Instr) (s : State)
  /-- The fetch traps, or waits: the state after it. -/
  | after (s : State)

/-- The instruction that a fetched word stands for (R91). -/
def instrOf (w : Nat) : Instr :=
  match decodeWord w with
  | .ok i => i
  | .error _ => .evIllegalWord w

/-- The trap of a fetch that fails: the frame PC is the address fetched, and the word is 0 (R112). -/
def State.fetchTrap (s : State) (cause : Nat) : State :=
  s.trapAfter { cause := cause, sub := 0, addr := s.fr.pc.toNat, race := [], lanes := s.fr.exec } 0 s.fr.pc

/-- The fragment of a group selected, with the instruction it issues next: that of the word in the entry that it issues again, or of
the word fetched at its PC (R112, R302, R446, R448). -/
def State.ahead (s : State) (gs frag : Nat) : Ahead :=
  let s := s.parkRay.take gs frag
  if !s.live then .after s
  else
    match s.ov with
    | some c => .at (instrOf (wordOf c.instr)) s
    | none =>
      if s.waitsFirst then .after s
      else
        match s.fetch s.myGridKey (coreOf gs) s.me.ctx s.fr.pc.toNat with
        | .word w t => .at (instrOf w) t
        | .waits => .after s
        | .fails why => .after ((s.countFailed why).fetchTrap why.cause)

/-- The fragment issues. -/
def State.issueOne (s : State) (gs frag : Nat) : Host.Outcome State Fault Refusal :=
  match s.ahead gs frag with
  | .at i t => exec i t
  | .after t => .next t

/-- The fragment is ready: something comes of its issue (R294). DEDUCED (log entry 17): unsafe for claims about the order of
issue. -/
def State.ready? (s : State) (gs frag : Nat) : Bool :=
  match s.ahead gs frag with
  | .at i t => match exec i t with | .next u => decide (u ≠ t) | _ => true
  | .after t => decide (t ≠ s.parkRay.take gs frag)

/-- The lowest lane a fragment holds, in the ranking of fragments split together (R295). -/
def Frag.lowest (f : Frag) : Nat := firstLane f.owned

/-- Of the ready fragments of a group, the one that has gone longest without issuing (R295). -/
def State.fragToIssue (s : State) (g : Group) : Option Frag :=
  let fs := g.frags.filter fun f => f.st == .running && !f.held && s.ready? g.gs f.id
  fs.find? fun f => !(fs.any fun x => decide (x.last < f.last) || (x.last == f.last && decide (x.lowest < f.lowest)))

/-- A group that takes part in issue choice, with the fragment it would issue (R126, R294). -/
def State.offers (s : State) : List (Group × Frag) :=
  s.allGroups.filterMap fun g =>
    if g.ended || g.saved || g.yielded.isSome then none else (s.fragToIssue g).map fun f => (g, f)

/-- The effective class of a group (R395). -/
def Group.eff (g : Group) : Nat := if 256 ≤ g.waitCount then 4 else g.cls

/-- One group goes before another on their pipe (R395). -/
def Group.issuesBefore (g h : Group) : Bool := decide (h.eff < g.eff) || (g.eff == h.eff && decide (g.order < h.order))

/-- Two groups share a pipe (R291). -/
def Group.samePipe (g h : Group) : Bool := coreOf g.gs == coreOf h.gs && g.gs % 128 == h.gs % 128

/-- What each pipe issues next, of the groups that take part (R395). -/
def issuesOf (os : List (Group × Frag)) : List Action :=
  (os.filter fun o => !(os.any fun p => p.1.samePipe o.1 && p.1.issuesBefore o.1)).map fun o => .issue o.1.gs o.2.id

/-! ## Microwords -/

/-- The ray selected, and the microword at its micro-PC performed (R259). A word that cannot be fetched is 0, and ends the ray by
what stopped the fetch. -/
def State.microOne (s : State) (id : Nat) : Host.Outcome State Fault Refusal :=
  let s := s.park.selectRay id
  if !s.rayLive then .next s
  else
    let s := if s.ray.runs then s.fetchImage s.ray else s
    let w := (s.microword s.ray).getD 0
    match decodeMicro w with
    | .ok i => exec i s
    | .error _ => exec (.evIllegalMicroword w) s

/-! ## Events -/

/-- The instruction stands for an event, not for a word that a fragment or a ray comes upon. -/
def isEvent (i : Instr) : Bool :=
  (encodingOf i).isNone && (match i with | .evIllegalWord _ | .evIllegalMicroword _ => false | _ => true)

/-- The core whose unit acts in an event (R424). -/
def State.actor (s : State) (i : Instr) : Option Nat :=
  let op := fun id => (s.op? id).map fun o => coreOf o.gs
  match i with
  | .evKerfFetch id | .evKerfSlot id | .evKerfPromotion id | .evKdrnDrain id | .evKzeroClear id | .evKstatReport id | .evRalcServe id
  | .evRalcStallExpiry id | .evRasterSampleUpdate id | .evTextureReturn id _ | .evSkidderCopy id | .evCanopyLaneStep id
  | .evMemoryAccessPerform id => op id
  | .evRayDelivery id => (s.rays.find? fun r => r.id == id).map (·.core)
  | .evRayTakeUp core _ => some core
  | .evTeamSave t | .evTeamRestore t => (s.team? t).map (·.core)
  | _ => none

/-- An event happens; anything else here is nothing. -/
def State.happens (s : State) (i : Instr) : Host.Outcome State Fault Refusal :=
  if isEvent i then exec i { s with unit := (s.actor i).getD s.unit } else .next s

/-- A group that has committed to a landing comes to its next RALC of it: it is within 256 instructions of its latest commit, and has one to
issue, an access that has not completed, or a RALC on its way (R250, R399, R438). -/
def State.makerNear (s : State) (os : List (Group × Frag)) (l : Landing) : Bool :=
  l.makers.any fun m =>
    match s.group? m.1 with
    | none => false
    | some g =>
      !g.ended && !g.saved && decide (g.issued < m.2 + 256)
      && (os.any (fun o => o.1.gs == g.gs)
        || s.ops.any fun o => o.gs == g.gs && !o.complete && (o.path == some .ls
            || (o.allocates.isSome && o.nums.headD 0 == l.key && !l.waiting.contains o.id)))

/-- The records of a retired consumer team may return now: no group that makes records is near its next RALC, which is served first, as
the walk has it. DEDUCED (log entry 33), unsafe for the moment of a return. -/
def State.returnsNow (s : State) (os : List (Group × Frag)) (t : Team) : Bool :=
  match t.batch, s.grid? t.grid with
  | some (key, _), some g => t.ended && !t.consumerDone && !(s.landing? g.ctx key).any (s.makerNear os)
  | _, _ => false

/-- What may become of an operation. -/
def opEvents (o : Op) : List Instr :=
  match o.cap.instr with
  | .kmma .. | .kmmaPair .. => [.evKerfFetch o.id, .evKerfSlot o.id, .evKerfPromotion o.id]
  | .kdrn .. => [.evKdrnDrain o.id]
  | .kzero .. => [.evKzeroClear o.id]
  | .kstat .. => [.evKstatReport o.id]
  | .ralc .. => [.evRalcServe o.id, .evRalcStallExpiry o.id]
  | .rcmt .. | .rget .. => [.evRalcServe o.id]
  | .prim .. => [.evRasterSampleUpdate o.id]
  | .tex .. => (List.range 32).map (.evTextureReturn o.id)
  | _ =>
    match o.path with
    | some .sk => [.evSkidderCopy o.id]
    | some .cn => [.evCanopyLaneStep o.id]
    | some .ls =>
      [.evMemoryAccessPerform o.id, .evReleaseWindow o.id]
        ++ (o.got.map (·.sector)).eraseDups.map (.evLoadSectorReturn o.id)
    | _ => []

/-- What may become of groups, teams, rays, landings and launches. -/
def State.unitEvents (s : State) (os : List (Group × Frag)) : List Instr :=
  s.allGroups.flatMap (fun g => [.evYieldExpiry g.gs, .evWatchdog g.gs, .evFullSaveEscalation g.gs])
    ++ s.teams.flatMap (fun t => [.evTeamSave t.serial, .evTeamRestore t.serial])
    ++ (s.teams.filter (s.returnsNow os)).map (fun t => .evRecordReturn t.serial)
    ++ s.rays.map (fun r => .evRayDelivery r.id)
    ++ (List.range 256).flatMap (fun c => ((s.rays.map (·.ctx)).eraseDups).map (.evRayTakeUp c))
    ++ s.landings.map (fun l => .evBatchTimeout l.key)
    ++ s.grids.flatMap (fun g => [.evTeamPlacement g.key, .evLaunchCompletion g.key])
    ++ ((List.range 64).filter s.packetWaits).map .evLaunchPacket
    ++ ((s.allGroups.map fun g => coreOf g.gs).eraseDups).flatMap (fun c => [.evRscopePressure c, .evScopeServe c])

/-- What may happen in the device at large: what comes of itself, and what its tests and sensors find, which are free values.
DESIGN CHOICE (log entry 47), safe. -/
def State.deviceEvents (s : State) : List Instr :=
  let any := fun (k : Nat) => Config.outside (s.tick + k)
  let gs := (s.allGroups[any 6 % (s.allGroups.length + 1)]?).getD Group.empty
  [.evTlbInvalidateDone, .evIcacheInvalidateDone, .evFaultQueueEntry, .evBudgetWindow, .evReleaseWindow s.nextOp,
    .evTranslationWalk (any 0 % 65536) (any 1), .evDieReady (any 2 % 4) (any 3), .evStackReady (any 2 % 8) (any 3),
    .evPortReady (any 2 % 16) (any 3), .evScrub (any 4) (any 5), .evCoreStateUncorrectable gs.gs (any 7) (4 + any 8 % 3),
    .evProtectiveTrip, .evPtpSync (any 9), .evPortDown (any 2 % 16)]
    ++ (List.range 64).map .evFrequencyChange

/-! ## Time -/

/-- Time passes, and ready clusters draw energy (R457); how much of either is free. DESIGN CHOICE (log entry 3): unsafe for the
start value alone. -/
def State.elapse (s : State) : State :=
  let s := s.park.reach (s.now + 1 + Config.elapsed s.tick)
  { s with
    clusters := s.clusters.map fun (c : Nat × Cluster) =>
      (c.1, if c.2.head = 0 then c.2 else { c.2 with energy := (c.2.energy + Config.outside (s.tick + c.1)) % 2 ^ 64 }) }.draw

/-- The groups that were ready while the time passed that has not been counted have waited its clocks (R395). -/
def State.countWaits (s : State) : State :=
  if s.counted = s.now then s
  else
    let before : State := { s with now := s.counted }
    let names := before.offers.map fun o => o.1.gs
    let clk := fun (gs : Nat) => s.clock gs - s.clockAt gs s.counted
    let s := s.park
    { s with
      counted := s.now
      groups := s.groups.map fun (g : Group) =>
        if names.contains g.gs then { g with waitCount := g.waitCount + clk g.gs } else g }

/-! ## A turn -/

/-- Everything that may come next. -/
def State.actions (s : State) : List Action :=
  let os := s.offers
  issuesOf os ++ (s.rays.filter (·.runs)).map (fun r => .micro r.id)
    ++ (s.ops.flatMap opEvents ++ s.unitEvents os ++ s.deviceEvents).map .event ++ [.input, .elapse]

/-- The device decides what comes next: which of the actions it is the spec leaves open. DEDUCED (log entry 1), the choice free
(log entry 4). What any agent has written since the last turn wakes who waits for it (R214). -/
def State.decideTurn (s : State) : State :=
  let s := s.park.parkRay.countWaits.wakeAll
  let as := s.actions
  { s with turn := some (as.getD (Config.choice s.tick % as.length) .elapse) }.draw

/-- What had been decided is done. -/
def State.takeTurn (s : State) (a : Action) : Host.Outcome State Fault Refusal :=
  let s := { s with turn := none }
  match a with
  | .issue gs frag => s.issueOne gs frag
  | .micro id => s.microOne id
  | .event i => s.happens i
  | .elapse => .next s.elapse
  | .input =>
    match s.inputs with
    | i :: rest => { s with inputs := rest }.happens i
    | [] => .next s

/-! ## Placing one instruction (the host's question) -/

/-- Where the instruction stands: a virtual page of 4 GiB that lies at physical address 0, and the place in it. -/
def probeBase : Nat := 2 ^ 32
def probeCode : Nat := 0x10000
def probeTable : Nat := 0x20000
def probeRecord : Nat := 0x30000

/-- A grid of one team with every field of its packet 0 but PTAB. -/
def probeGrid : Grid :=
  { key := 0, queue := 0, packet := setField (List.replicate 128 0) 0x58 8 (probeBase + probeTable), ctx := 0, budget := 0
    qclass := 0, route := [], dies := [], nextTeam := 1, teams := 1, lastCore := 0, kills := 0, status := 0, reason := 0
    landings := [], consumerOf := none, l1Mark := 0, accepted := true, finished := false }

def probeTeam : Team :=
  { serial := 0, epoch := 0, grid := 0, index := 0, core := 0, slots := [0], home := [0], tbase := 0, tbytes := 4096
    cluster := none, tiles := [], barriers := [], passedCbar := false, ended := false, batch := none, consumerDone := false
    request := none, unit := none, saved := false, killedSeq := none, killed := false, budget := 0, launch := 0
    store := [], storedTags := [], storedTiles := [], image := [], storedRanges := [] }

/-- A group of 32 lanes at the code, under D = 0, with the greatest allocation. -/
def probeGroup : Group :=
  { Group.empty with
    ended := false, lanes := BitVec.allOnes 32, alloc := 112, nextFrag := 1
    frags := [{ Frag.empty with
      pc := BitVec.ofNat 64 (probeBase + probeCode), mr := mrReset 0, exec := BitVec.allOnes 32, st := .running }]
    race := RaceState.fresh 1 }

/-- The dies and stacks ready, the page mapped for context 0, the group resident, the word at its PC, and its issue decided.
DESIGN CHOICE (log entry 6), safe. -/
def State.placeWord (s : State) (w : Nat) : State :=
  let s := s.park.parkRay
  let s := { s with
    ready := 0xFFF, failed := 0, trip := false, icache := [], l2i := []
    tlb := [{ cache := 512, ctx := 0, va := probeBase, size := 2 ^ 32, base := 0, flags := 0xE0 }]
    groups := probeGroup :: s.groups.filter fun (g : Group) => g.gs != 0
    teams := probeTeam :: s.teams.filter fun (t : Team) => t.serial != 0
    grids := probeGrid :: s.grids.filter fun (g : Grid) => g.key != 0
    turn := some (.issue 0 0) }
  s.wrNat probeCode 4 w

/-- A ray whose bound program is the one word, and its next step decided. -/
def State.placeMicro (s : State) (w : Nat) : State :=
  let s := s.placeWord w
  let s := s.wrNat probeTable 8 (probeBase + probeCode)
  let s := s.wrNat (probeTable + 8) 4 (2 ^ 31 + 1)
  let r : Ray :=
    { Ray.empty with
      id := s.nextOp, record := probeBase + probeRecord, bytes := setStatus (List.replicate 192 0) statusRunning 0
      layout := List.replicate 64 0 }
  { s with codes := [], rays := r :: s.rays.filter fun (x : Ray) => x.id != s.nextOp, turn := some (.micro s.nextOp) }

end Sys2Proof.Machine
end

