-- ==== Sys2Proof/Machine/Step.lean ====
section
/-!
DEFINITION. One step of the machine: what has been decided is done; otherwise what comes next is decided.
-/
namespace Sys2Proof.Machine

/-- One step. -/
def step (s : State) : Host.Outcome State Fault Refusal :=
  match s.turn with
  | some a => s.takeTurn a
  | none => .next s.decideTurn

/-- The state with the instruction whose bits are `w` where the next step fetches: a kernel word at the PC of a fragment, or, where
no kernel word has that value, a microword under the micro-PC of a ray. -/
def State.withFetchWord (s : State) (nbits w : Nat) : State :=
  match decodeWord (w % 2 ^ nbits) with
  | .ok _ => s.placeWord (w % 2 ^ nbits)
  | .error _ => s.placeMicro (w % 2 ^ nbits)

end Sys2Proof.Machine
end

