-- ==== Sys2Proof/WellFormed.lean ====
section
/-!
DEFINITION. Which terms of `Instr` stand for words the spec allows (R78 to R84, R90, R91 checks 2, 3 and 5, R258, R259).
What a check needs of the machine's state (the allocation, MR, D, a control word) is the issue gate's matter.
-/
namespace Sys2Proof

/-- The fields lie within their widths and hold values their entry allows. -/
def WellFormed (i : Instr) : Prop := wordOk i = true

end Sys2Proof
end

