-- ==== Sys2Proof/Safety.lean ====
section
/-!
DEFINITION. The terms in which claims about runs are stated: when an instruction has its effect, what an issue leaves alone, and the
form that states keep.
-/
namespace Sys2Proof.Machine

/-- A step answers a next state: the machine has stopped with no fault and no refusal. -/
def GoesOn (s : State) : Prop := ∃ t, step s = .next t

/-- The instruction stands for a microword (R257 to R259). -/
def isMicro : Instr → Bool
  | .uJmp .. | .uJz .. | .uJnz .. | .uLeaf .. | .uHitc .. | .uSetf .. | .uClrf .. | .uCntr ..
  | .uFaultx .. | .evIllegalMicroword .. | .uNload | .uBoxn | .uTrin | .uSphn | .uOrdn | .uPushn
  | .uPopn | .uNextp | .uAnyh | .uXfrm | .uXret | .uMiss | .uDone => true
  | _ => false

/-- The instruction stands for a kernel word: it is neither a microword nor an event. -/
def isKernel (i : Instr) : Bool := !isMicro i && !isEvent i

/-- Memory is in its canonical form. -/
def Canonical (s : State) : Prop := Memory.wf s.memory = true

/-- A fragment is selected to issue, and nothing holds an instruction back: the checks of R441 pass and no wait applies. -/
def Free (i : Instr) (s : State) : Prop := s.live = true ∧ s.gate i = .go

/-- A ray is selected, runs, and its microword can be fetched. -/
def RayFree (s : State) : Prop :=
  s.rayLive = true ∧ s.ray.runs = true ∧ s.fetchLate s.ray = false ∧ s.fetchEnds s.ray = none

/-- Operations bear numbers already given. -/
def Numbered (s : State) : Prop := ∀ o ∈ s.ops, o.id < s.nextOp

/-- Cached translations are of whole pages. -/
def WholePages (s : State) : Prop := ∀ x ∈ s.tlb, x.size % 4096 = 0

/-- The form that every state keeps. -/
def Sound (s : State) : Prop := Canonical s ∧ Numbered s ∧ WholePages s

/-- The word of the instruction: its opcode in bits 31:24, each field at its lowest bit, and every other bit 0 (R78, R80). -/
def Spelled (i : Instr) (op : Nat) (fields : List (Nat × Nat)) : Prop :=
  encode i = some (fields.foldl (fun w f => w + f.1 * 2 ^ f.2) (op * 2 ^ 24))

/-! ## What an issue leaves alone -/

/-- A group without what every issue may change in it: its fragments and joins, its count of issues and when it was, and the counts of its
waits and of the watchdog (R85, R108, R395, R443). -/
def Group.body (g : Group) : Group :=
  { g with
    frags := [], joins := [], nextFrag := 0, issued := 0, waitCount := 0, dogCount := 0, dogWindow := 0, dogEnded := false
    quiet := 0 }

/-- A group whether or not it stands out of issue choice (R126). -/
def Group.awake (g : Group) : Group := { g with yielded := none }

/-- An operation whichever fragment of its group it belongs to (R31). -/
def Op.unowned (o : Op) : Op := { o with frag := 0 }

/-- Nothing changes but the issuing group and its fragment: other groups' YIELD may end (R126), and an operation may pass to the
fragment that a join has merged (R31). Memory, tags, every special and device register, teams, grids, tiles, rays, landings, caches and
translations are among what stays. -/
def OutsideKept (s t : State) : Prop :=
  t = { s with me := t.me, fr := t.fr, groups := t.groups, ops := t.ops }
  ∧ t.groups.map Group.awake = s.groups.map Group.awake
  ∧ t.ops.map Op.unowned = s.ops.map Op.unowned

/-- What an instruction that writes registers alone leaves: everything outside, and of the issuing group all but what `erase` blots
out. -/
def Frame (erase : Group → Group) (s t : State) : Prop :=
  OutsideKept s t ∧ (erase t.me).body = (erase s.me).body

/-- What an instruction may write of its group, blotted out. -/
def Group.noVectors (g : Group) : Group := { g with vregs := [] }
def Group.noVectorsFlags (g : Group) : Group := { g with vregs := [], tflags := [] }
def Group.noScalars (g : Group) : Group := { g with sregs := [] }
def Group.noPreds (g : Group) : Group := { g with preds := [] }
def Group.noQs (g : Group) : Group := { g with qs := 0 }

/-- Where the fragment goes on once the word has issued (R77, R302): the next word; after a word issued again, PC as it stands. -/
def State.nextPc (s : State) : Addr := match s.ov with | some _ => s.fr.pc | none => s.fr.pc + 4

/-- The fragment keeps its lanes, MR, links and traps: it has issued, its windows have counted the issue, and its PC has gone on. -/
def FragKept (s u : State) : Prop :=
  u.fr = { s.fr with pc := s.nextPc, last := u.fr.last, wins := u.fr.wins, inject := u.fr.inject }

/-- The instruction answers a next state, which is `u` after arrival at a join where the fragment now stands at one (R108): the
fragment of `u` has gone on to its next word, what stays has stayed, and the registers are as `P` says. -/
def Completes (i : Instr) (s : State) (erase : Group → Group) (P : State → Prop) : Prop :=
  ∃ u : State, exec i s = .next u.settleArrival ∧ FragKept s u ∧ Frame erase s u.settleArrival ∧ P u.settleArrival

/-- The instruction has counted as one of each window that it fell in; a window that has passed with its operation complete is closed
(R85). -/
def WindowsCount (s u : State) : Prop :=
  u.fr.wins = (((s.fr.wins.filter fun w => decide (0 < w.left)).map fun w => { w with left := w.left - 1 }).filter fun w =>
    decide (0 < w.left) || !s.opDone w.op)

/-- A scalar register as the file holds it. -/
def State.sreg (s : State) (k : Nat) : Word := sget 0 s.me.sregs k

/-- The instruction issues and leaves one operation behind, with these accesses still to perform: it is counted on its path, its window
opens on the registers it is to write, and nothing else of the machine changes (R85, R86, R183, R221) but what `erase` blots out of the
issuing group, of which `P` holds. -/
def OpensAs (i : Instr) (s : State) (lanes : Mask) (nums : List Nat) (todo : List Access) (erase : Group → Group) (P : State → Prop) :
    Prop :=
  ∃ (u : State) (o : Op), exec i s = .next u.settleArrival ∧ FragKept s u
    ∧ u = { s with me := u.me, fr := u.fr, groups := u.groups, ops := s.ops ++ [o], nextOp := s.nextOp + 1 }
    ∧ (erase u.me).body = (erase s.me).body ∧ P u ∧ u.groups.map Group.awake = s.groups.map Group.awake
    ∧ o.id = s.nextOp ∧ o.gs = s.me.gs ∧ o.frag = s.fr.id ∧ o.path = (shape i).path ∧ o.cap.instr = i ∧ o.cap.act = lanes
    ∧ o.region = s.me.race.rg ∧ o.todo = todo ∧ o.got = [] ∧ o.nums = nums ∧ o.begun = false ∧ o.complete = false
    ∧ u.fr.wins.getLast? = some
        { op := s.nextOp, la := (shape i).la.getD 0, left := (shape i).la.getD 0, regs := s.writeCodes i }

/-- Lanes of the instruction, and no others, park at its issue with the cause and the address of the lowest fault, which joins the order of
the fault ring; an operation is left behind for the rest, where there are any. Memory and registers stay. Then the parked fragments are
written into the group's context slot (R30, R180, R181, R301, R451). -/
def Parks (i : Instr) (s : State) (lanes bad : Mask) (cause va : Nat) (wr : Bool) : Prop :=
  ∃ (u : State) (p : Parked) (f : FaultRec) (os : List Op), exec i s = .next (State.keepParked s u s.me.gs).settleArrival
    ∧ u.fr.exec = s.fr.exec &&& ~~~bad
    ∧ u.me.parked = s.me.parked ++ [p] ∧ p.cap.instr = i ∧ p.cap.act = bad ∧ p.cause = cause ∧ p.wr = wr ∧ p.mr = s.fr.mr
    ∧ p.clr = s.fr.clr ∧ p.links = s.fr.links ∧ p.next = s.nextPc ∧ p.seq = none ∧ p.waits = none
    ∧ u.faults = s.faults ++ [f] ∧ f.kind = 0 ∧ f.cause = cause ∧ f.vaddr = va ∧ f.gs = s.me.gs ∧ f.mask = bad ∧ f.seq = none
    ∧ u.ops = s.ops ++ os ∧ (os = [] ↔ lanes &&& ~~~bad = 0)
    ∧ (∀ o ∈ os, o.id = s.nextOp ∧ o.cap.instr = i ∧ o.cap.act = lanes &&& ~~~bad ∧ ∀ x ∈ o.todo, (lanes &&& ~~~bad).getLsbD x.lane)
    ∧ u.memory = s.memory ∧ u.me.vregs = s.me.vregs ∧ u.me.sregs = s.me.sregs ∧ u.me.preds = s.me.preds ∧ u.me.tflags = s.me.tflags

/-- The instruction leaves one operation behind, and nothing of its group changes but what every issue may change. -/
def Opens (i : Instr) (s : State) (lanes : Mask) (nums : List Nat) (todo : List Access) : Prop :=
  OpensAs i s lanes nums todo id fun _ => True

/-- The vector registers after an instruction with destination `d`: in the active lanes `d` holds `word`, and its planes `plane`; every
other lane, register and plane is unchanged (R8, R9, R11). -/
def VecIs (s t : State) (d : Nat) (word : Nat → Word) (plane : Nat → Nat → Word) : Prop :=
  ∀ r k l, k ≤ s.d → l < 32 → t.me.vword r k l =
    if r = d ∧ s.active.getLsbD l then (if k = 0 then word l else plane (k - 1) l) else s.me.vword r k l

/-- The same, with planes zero (R12). -/
def WordIs (s t : State) (d : Nat) (word : Nat → Word) : Prop := VecIs s t d word fun _ _ => 0

/-- The scalar registers after an instruction with destination `d` (R14). -/
def ScalarIs (s t : State) (d : Nat) (w : Word) : Prop := t.sreg d = w ∧ ∀ k, k ≠ d → t.sreg k = s.sreg k

/-- The lane predicates after an instruction with destination `d`: written in the active lanes; p0 stays all 1 (R20). -/
def PredIs (s t : State) (d : Nat) (v : Nat → Bool) : Prop :=
  ∀ p l, l < 32 → (t.me.pred p).getLsbD l =
    if p = d ∧ d ≠ 0 ∧ s.active.getLsbD l then v l else (s.me.pred p).getLsbD l

/-- The uniform predicates after an instruction with destination `d`; q0 stays 1 (R21). -/
def UniformIs (s t : State) (d : Nat) (v : Bool) : Prop :=
  ∀ k, k < 8 → t.me.q k = if k = d ∧ d ≠ 0 then v else s.me.q k

/-- TFLAGS after an instruction that sets bits in the active lanes (R33). -/
def FlagsAre (s t : State) (f : Nat → BitVec 3) : Prop :=
  ∀ l, l < 32 → t.me.flags l = if s.active.getLsbD l then s.me.flags l ||| f l else s.me.flags l

/-- The registers after a float instruction that gives lane l and element j the result `r l j`: value and planes by element, and the
flags of a lane's elements together (R143, R158). -/
def FloatIs (s t : State) (d : Nat) (r : Nat → Nat → Fres) : Prop :=
  VecIs s t d
    (fun l => joinElems (etWidth (mrEt s.mr)) ((List.range (etCount (mrEt s.mr))).map fun j => (r l j).val))
    (fun k l => joinElems (etWidth (mrEt s.mr)) ((List.range (etCount (mrEt s.mr))).map fun j => (r l j).ds.getD k 0))
  ∧ FlagsAre s t fun l => laneFlags ((List.range (etCount (mrEt s.mr))).map (r l))

/-- The registers after an integer instruction that gives lane l and element j the exact result `r l j`: wrapped to the element, or
clamped where the instruction obeys SAT and MR.SAT is set; planes zero (R54, R150). -/
def IntIs (s t : State) (d : Nat) (clamps : Bool) (r : Nat → Nat → Int) : Prop :=
  WordIs s t d fun l =>
    let y := etInt (mrEt s.mr)
    joinElems y.width ((List.range (32 / y.width)).map fun j =>
      wrap y.width (if clamps = true ∧ mrSat s.mr = true then y.clamp (r l j) else r l j))

/-- The float environment of an element in a lane (R51, R146). -/
def State.env (s : State) (l j : Nat) : Fenv := s.fenv (etFormat (mrEt s.mr)) (s.globalId l) j

/-- An element of a source as a float instruction reads it. -/
def State.src (s : State) (x l j : Nat) : Operand := s.operand (etFormat (mrEt s.mr)).width x l j

/-- An element of a source as an integer. -/
def State.int (s : State) (x l j : Nat) : Int := s.intElem (etInt (mrEt s.mr)) x l j

/-- An element of a source as its code. -/
def State.code (s : State) (x l j : Nat) : Nat := s.codeElem (etInt (mrEt s.mr)) x l j

/-! ## Forms of the other statements -/

/-- What a synchronising instruction may write of its group, blotted out: its region, bounds and release, when its writes were
sent, and what its acquires and fences hold back. -/
def Group.noSync (g : Group) : Group :=
  { g with race := RaceState.fresh 0, l1Mark := 0, fencing := [], holds := [], sent := [] }

/-- An arrival of group `id` with the count `n` on a barrier whose live groups are `alive` (R205): the first arrival of a phase sets
EXPECT, and the arrival that completes the phase advances it and empties the arrivals. -/
def Arrives (b b' : Barrier) (id n : Nat) (alive : List Nat) : Prop :=
  let count := if b.arrived = [] then n else b.expect
  let done := if count = 0 then (∀ g ∈ alive, g = id ∨ g ∈ b.arrived) else b.arrived.length + 1 = count
  b'.expect = count
  ∧ (done → b'.phase = (b.phase + 1) % 2 ^ 16 ∧ b'.arrived = [])
  ∧ (¬ done → b'.phase = b.phase ∧ b'.arrived = id :: b.arrived)

/-- No group and no ray is selected: how an event finds the machine. -/
def Idle (s : State) : Prop := s.live = false ∧ s.rayLive = false

/-- The event answers a next state of which `P` holds. -/
def Happens (i : Instr) (s : State) (P : State → Prop) : Prop := ∃ t, exec i s = .next t ∧ P t

/-- The instruction issues and leaves one operation behind, the race check of its ranges having come to `c` (R224): but for the fragment,
the operation and what that check noted, nothing changes. `later` are the granules of the ranges that were not reached, which are checked
when the operation comes to them. -/
def OpensAfter (i : Instr) (s c : State) (later : List (Nat × Bool)) (lanes : Mask) (nums : List Nat) (todo : List Access)
    (holds : List (Nat × Nat)) : Prop :=
  ∃ (u : State) (o : Op), exec i s = .next u.settleArrival ∧ FragKept s u
    ∧ u = { c with fr := u.fr, ops := c.ops ++ [o], nextOp := s.nextOp + 1 }
    ∧ o.id = s.nextOp ∧ o.gs = s.me.gs ∧ o.frag = s.fr.id ∧ o.path = (shape i).path ∧ o.cap.instr = i ∧ o.cap.act = lanes
    ∧ o.region = s.me.race.rg ∧ o.todo = todo ∧ o.nums = nums ∧ o.holds = holds ∧ o.later = later
    ∧ o.begun = false ∧ o.complete = false ∧ c.memory = s.memory ∧ c.me.vregs = s.me.vregs ∧ c.me.sregs = s.me.sregs ∧ c.me.preds = s.me.preds

/-- The instruction answers a next state, `u` after arrival at a join: the fragment goes on, memory stays, and of the group's registers
only the vector registers change, as `P` says. -/
def Writes (i : Instr) (s : State) (P : State → Prop) : Prop :=
  ∃ u : State, exec i s = .next u.settleArrival ∧ FragKept s u ∧ u.memory = s.memory
    ∧ u.me.sregs = s.me.sregs ∧ u.me.preds = s.me.preds ∧ u.me.qs = s.me.qs ∧ u.me.tflags = s.me.tflags ∧ P u

/-- The microword goes on at the micro-PC `n`: the step is counted, no byte of the record changes but the step count, the micro-PC and
those listed, the ray's buffers stay but for what `P` says, its layout is `x`, and nothing changes from `c`, which is the machine as its
accesses leave it (R259, R284). -/
def MicroGoesAs (i : Instr) (s c : State) (x : List Byte) (n : Nat) (changed : List Nat) (P : Ray → Prop) : Prop :=
  ∃ r : Ray, exec i s = .next { c with ray := r } ∧ c.memory = s.memory ∧ r.mpc = n ∧ r.steps = s.ray.steps + 1
    ∧ r = { s.ray with bytes := r.bytes, past := r.past, full := r.full, layout := x, kids := r.kids, cand := r.cand, invd := r.invd
                       node := r.node }
    ∧ (∀ j, j ∉ [0x20, 0x21, 0x22, 0x2C, 0x2D] ++ changed → r.bytes[j]? = s.ray.bytes[j]?) ∧ P r

/-- The same, where the ray keeps the layout that it holds. -/
def MicroGoes (i : Instr) (s c : State) (n : Nat) (changed : List Nat) (P : Ray → Prop) : Prop :=
  MicroGoesAs i s c s.ray.layout n changed P

/-- The ray's buffers are as they were. -/
def Ray.buffersAs (r q : Ray) : Prop := r.kids = q.kids ∧ r.cand = q.cand ∧ r.node = q.node ∧ r.invd = q.invd

/-- The microword ends the ray's stay in the Cruiser, its step counted: the record that is written back is as `P` says (R281, R282). -/
def MicroLeaves (i : Instr) (s : State) (P : Ray → Prop) : Prop :=
  ∃ r : Ray, exec i s = .next (s.leaveCruiser r) ∧ r.id = s.ray.id ∧ r.record = s.ray.record ∧ r.bytes.length = s.ray.bytes.length
    ∧ r.steps = s.ray.steps + 1 ∧ P r

/-- Ranges of one length read one after another for a ray. -/
inductive RayReads (r : Ray) (n : Nat) : List Nat → State → State → List (List Byte) → Prop where
  | none (s : State) : RayReads r n [] s s []
  | more {s t u : State} {a : Nat} {as : List Nat} {bs : List (List Byte)} {b : List Byte} :
    RayReads r n as s t bs → t.rayRead r a n = .ok (u, b) → RayReads r n (as ++ [a]) s u (bs ++ [b])

/-- No transaction has a granule in its set, so that no access aborts one (R219). -/
def NoTx (s : State) : Prop := ∀ g ∈ s.groups, g.tx.set = []

/-- The words of one lane of a group in a slot, from a register on, are these with planes zero; every other register, plane and lane of the
group is as it was. -/
def LaneGets (s t : State) (gs r lane : Nat) (ws : List Nat) : Prop :=
  ∀ g, s.group? gs = some g → ∃ h, t.group? gs = some h
    ∧ (∀ j k, j < ws.length → k ≤ g.tangents → h.vword (r + j) k lane = if k = 0 then BitVec.ofNat 32 (ws.getD j 0) else 0)
    ∧ ∀ q k l, k ≤ g.tangents → l < 32 → (q < r ∨ r + ws.length ≤ q ∨ l ≠ lane) → h.vword q k l = g.vword q k l

/-- A slot after a commit of a sample, in front of what it holds or behind (R241): its colour, T and NCOMMIT. -/
def committed (x : Slot) (front : Bool) (e : Sample) : Slot :=
  let a := wideF16 e.alpha
  let u := sub32 oneF32 a
  let t := x.word 0x0C
  let blend := fun (c v : Nat) => if front then fma32 a c (mul32 u v) else fma32 (mul32 t a) c v
  let y := (List.range 3).foldl (fun (y : Slot) j => y.put (4 * j) (blend (e.colour.getD j 0) (x.word (4 * j)))) x
  (y.put 0x0C (if front then mul32 u t else mul32 t u)).put 0x14 ((x.word 0x14 + 1) % 2 ^ 32)

/-- What is logged of a commit (R353). -/
def commitLog (x : Slot) (front : Bool) (e : Sample) : List Byte :=
  logEntry x (if front then 1 else 0) e.id (wideF16 e.alpha) e.depth e.colour

/-- A buffer committed, nearest first, until T comes to T_min: the slot, and what is logged (R243). -/
def commitAll : Slot → List Sample → Slot × List (List Byte)
  | x, [] => (x, [])
  | x, e :: rest =>
    let y := (committed x false e).put 0x10 e.depth
    let r := if y.spent then (y, []) else commitAll y rest
    (r.1, commitLog x false e :: r.2)

/-- A lane step leaves entries in the log of the slot at a key, up to one that is past the capacity or out of reach, where it sets LOGX;
outside the slot and these, memory is as it was (R241, R353). -/
def LogsAs (s t : State) (grid key : Nat) (ls : List (List Byte)) : Prop :=
  let x : Slot := s.rdBytes key 256
  let cnt := fieldAt x 0x24 2
  let place := fun (i : Nat) => x.word 0x20 + 48 * (cnt + i)
  let n := ((List.range ls.length).takeWhile fun i =>
    decide (cnt + i < fieldAt x 0x26 2) && (s.offsetBad grid (place i) 48).isNone).length
  (∀ i, i < n → t.rdBytes (sramKey (place i)) 48 = ls.getD i [])
  ∧ t.rdNat (key + 0x24) 2 = cnt + n ∧ t.rdNat (key + 0x26) 2 = fieldAt x 0x26 2
  ∧ Nat.testBit (t.rdNat (key + 0x28) 4) 6 = (x.logx || decide (n < ls.length))
  ∧ ∀ k, (k < key ∨ key + 256 ≤ k) → (∀ i, i < n → k < sramKey (place i) ∨ sramKey (place i) + 48 ≤ k) → t.rdByte k = s.rdByte k

/-- A lane step gives its lane one word, and leaves the planes and every other register and lane of the group alone (R239). -/
def LaneGetsPlain (s t : State) (gs r lane v : Nat) : Prop :=
  ∀ g, s.group? gs = some g → ∃ h, t.group? gs = some h ∧ h.vword r 0 lane = BitVec.ofNat 32 v
    ∧ ∀ q k l, k ≤ g.tangents → l < 32 → (q ≠ r ∨ k ≠ 0 ∨ l ≠ lane) → h.vword q k l = g.vword q k l

/-- No operation of that number is left, or it has completed and waits to be counted out. -/
def Over (t : State) (op : Nat) : Prop := ∀ o, t.op? op = some o → o.complete = true

end Sys2Proof.Machine
end

