-- ==== Sys2Proof/Certificates/Slice0/Obligations.lean ====
section
/-!
DEFINITION. The statements for the provers: what each instruction, micro-operation and event does, what it leaves alone, when it
completes, and what holds of the machine as a whole.
-/
open Sys2Proof Sys2Proof.Machine

/-! ## Scalar and uniform instructions -/

/-- R138: every scalar arithmetic instruction completes with its result in `d`, and nothing else of the machine changes; their words; a field of
64 or more, and for SMULH, SMIN and SMAX an f of 2 or more, makes a word ill-formed. -/
def Obligations.ScalarArithmetic : Prop :=
  (∀ (s : State) (d a b : Nat),
    let ends := fun (i : Instr) (w : Word) => Free i s → Completes i s Group.noScalars fun t => ScalarIs s t d w
    let x := s.rdS a
    let y := s.rdS b
    ends (.sadd d a b) (x + y) ∧ ends (.ssub d a b) (x - y) ∧ ends (.smul d a b) (x * y)
    ∧ ends (.sand d a b) (x &&& y) ∧ ends (.sor d a b) (x ||| y) ∧ ends (.sxor d a b) (x ^^^ y)
    ∧ ends (.sshl d a b) (if 32 ≤ y.toNat then 0 else x <<< y.toNat)
    ∧ ends (.sshr d a b) (if 32 ≤ y.toNat then 0 else x >>> y.toNat)
    ∧ ends (.ssar d a b) (if 32 ≤ y.toNat then (if x.msb then 0xFFFFFFFF else 0) else x.sshiftRight y.toNat)
    ∧ ends (.smov d a) x
    ∧ ends (.smulh d a b 0) (BitVec.ofInt 32 (x.toInt * y.toInt / 2 ^ 32))
    ∧ ends (.smulh d a b 1) (BitVec.ofNat 32 (x.toNat * y.toNat / 2 ^ 32))
    ∧ ends (.smin d a b 0) (if x.toInt ≤ y.toInt then x else y) ∧ ends (.smin d a b 1) (if x.toNat ≤ y.toNat then x else y)
    ∧ ends (.smax d a b 0) (if x.toInt ≤ y.toInt then y else x) ∧ ends (.smax d a b 1) (if x.toNat ≤ y.toNat then y else x))
  ∧
  (∀ d a b f : Nat,
    (∀ io ∈ [(Instr.sadd d a b, 0x19), (.ssub d a b, 0x1A), (.smul d a b, 0x1B), (.sand d a b, 0x1C), (.sor d a b, 0x1D), (.sxor d a b, 0x1E),
        (.sshl d a b, 0x1F), (.sshr d a b, 0x20), (.ssar d a b, 0x21)],
      Spelled io.1 io.2 [(d, 17), (a, 10), (b, 3)] ∧ (64 ≤ d ∨ 64 ≤ a ∨ 64 ≤ b → ¬ WellFormed io.1))
    ∧ Spelled (.smov d a) 0x22 [(d, 17), (a, 10)] ∧ (64 ≤ d ∨ 64 ≤ a → ¬ WellFormed (.smov d a))
    ∧ ∀ io ∈ [(Instr.smulh d a b f, 0x23), (.smin d a b f, 0x24), (.smax d a b f, 0x25)],
      Spelled io.1 io.2 [(d, 17), (a, 10), (b, 3), (f, 0)] ∧ (64 ≤ d ∨ 64 ≤ a ∨ 64 ≤ b ∨ 2 ≤ f → ¬ WellFormed io.1))

/-- R141: SMOVI writes the sign-extended immediate; SMOVH writes bits 31:14 and keeps bits 13:0; their words. R130: EXECR reads EXEC. -/
def Obligations.ScalarConstants : Prop :=
  ∀ (s : State) (d imm : Nat),
    (Free (.smovi d imm) s →
      Completes (.smovi d imm) s Group.noScalars fun t => ScalarIs s t d ((BitVec.ofNat 18 imm).signExtend 32))
    ∧ (Free (.smovh d imm) s → Completes (.smovh d imm) s Group.noScalars fun t =>
        (∀ j, j < 14 → (t.sreg d).getLsbD j = (s.rdS d).getLsbD j)
        ∧ (∀ j, j < 18 → (t.sreg d).getLsbD (14 + j) = Nat.testBit imm j) ∧ ∀ k, k ≠ d → t.sreg k = s.sreg k)
    ∧ (Free (.execr d) s → Completes (.execr d) s Group.noScalars fun t => ScalarIs s t d s.fr.exec)
    ∧ Spelled (.smovi d imm) 0x28 [(d, 18), (imm, 0)] ∧ Spelled (.smovh d imm) 0x29 [(d, 18), (imm, 0)]

/-- R139, R140: SCMP and QOP write the uniform predicate named, q0 excepted, by the tables of R81 and R82; their words, and a predicate field of 8
or more makes one ill-formed. -/
def Obligations.UniformPredicates : Prop :=
  ∀ (s : State) (d a b f : Nat),
    let x := s.rdS a
    let y := s.rdS b
    let p := s.rdQ a
    let q := s.rdQ b
    (Free (.scmp d a b f) s → f < 8 → Completes (.scmp d a b f) s Group.noQs fun t => UniformIs s t d
      ([decide (x = y), decide (x ≠ y), decide (x.toInt < y.toInt), decide (x.toInt ≤ y.toInt), decide (y.toInt < x.toInt),
        decide (y.toInt ≤ x.toInt), decide (x.toNat < y.toNat), decide (y.toNat ≤ x.toNat)].getD f false))
    ∧ (Free (.qop d a b f) s → f < 8 → Completes (.qop d a b f) s Group.noQs fun t => UniformIs s t d
      ([p && q, p || q, p != q, p && !q, !p, p, !(p && q), !(p || q)].getD f false))
    ∧ Spelled (.scmp d a b f) 0x26 [(d, 17), (a, 10), (b, 3), (f, 0)] ∧ Spelled (.qop d a b f) 0x27 [(d, 17), (a, 10), (b, 3), (f, 0)]
    ∧ (8 ≤ d → ¬ WellFormed (.scmp d a b f)) ∧ (8 ≤ d ∨ 8 ≤ a ∨ 8 ≤ b → ¬ WellFormed (.qop d a b f))

/-- R135 to R137, R174, R175: what the lane-to-uniform moves write; UCHK has no effect where the active lanes agree, and traps NONUNIFORM where two
of them differ; ULANE allows the lanes 0 to 31. -/
def Obligations.LaneToUniform : Prop :=
  (∀ (s : State) (d a imm : Nat),
     (Free (.ufirst d a) s → Completes (.ufirst d a) s Group.noScalars fun t =>
       (s.active = 0 → ScalarIs s t d 0)
       ∧ ∀ l, l < 32 → s.active.getLsbD l → (∀ m, m < l → ¬ s.active.getLsbD m) → ScalarIs s t d (s.srcV a l))
     ∧ (Free (.ulane d a imm) s → Completes (.ulane d a imm) s Group.noScalars fun t => ScalarIs s t d (s.srcV a imm))
     ∧ (Free (.ballot d a) s → Completes (.ballot d a) s Group.noScalars fun t =>
       ScalarIs s t d (s.active &&& s.rdP a))
     ∧ (Free (.eqmask d a) s → Completes (.eqmask d a) s Group.noScalars fun t =>
       (∀ k, k ≠ d → t.sreg k = s.sreg k) ∧ (s.active = 0 → t.sreg d = 0)
       ∧ ∀ m l, m < 32 → l < 32 → s.active.getLsbD m → (∀ j, j < m → ¬ s.active.getLsbD j) →
         (t.sreg d).getLsbD l = (s.active.getLsbD l && (s.srcV a l == s.srcV a m))))
  ∧
  (∀ (s : State) (a : Nat), Free (.uchk a) s →
     (∀ l m, l < 32 → m < 32 → s.active.getLsbD l → s.active.getLsbD m → s.srcV a l = s.srcV a m) →
     Completes (.uchk a) s id fun _ => True)
  ∧
  (∀ (s : State) (a l m : Nat), Free (.uchk a) s → l < 32 → m < 32 → s.active.getLsbD l → s.active.getLsbD m → s.srcV a l ≠ s.srcV a m →
     exec (.uchk a) s = .next (s.trapAt (.uchk a) (Trap.plain causeNonuniform 0 s.active)))
  ∧
  (∀ d a imm : Nat, Spelled (.ufirst d a) 0x16 [(d, 17), (a, 10)] ∧ Spelled (.uchk a) 0x17 [(a, 10)]
     ∧ Spelled (.ulane d a imm) 0x18 [(d, 17), (a, 10), (imm, 0)]
     ∧ (32 ≤ imm → ¬ WellFormed (.ulane d a imm)) ∧ (64 ≤ d → ¬ WellFormed (.ulane d a imm) ∧ ¬ WellFormed (.ufirst d a))
     ∧ Spelled (.ballot d a) 0x91 [(d, 17), (a, 10)] ∧ (64 ≤ d ∨ 8 ≤ a → ¬ WellFormed (.ballot d a))
     ∧ Spelled (.eqmask d a) 0x92 [(d, 17), (a, 10)] ∧ (64 ≤ d → ¬ WellFormed (.eqmask d a)))

/-- R131, R132, R133, R32, R33: special registers read and written, and the clock.
Where the spec is silent it holds by the model's own choice: log entries 3, 46. -/
def Obligations.SpecialRegisters : Prop :=
  ∀ (s : State) (d a imm : Nat),
    (Free (.sprr d imm) s → imm ≠ 0 → imm ≠ 9 → Completes (.sprr d imm) s Group.noScalars fun t =>
      (∀ k, k ≠ d → t.sreg k = s.sreg k)
      ∧ (imm = 1 → t.sreg d = BitVec.ofNat 32 s.me.gid) ∧ (imm = 2 → t.sreg d = s.me.teamId)
      ∧ (imm = 3 → t.sreg d = BitVec.ofNat 32 s.me.role) ∧ (imm = 4 → t.sreg d = BitVec.ofNat 32 (coreOf s.me.gs))
      ∧ (imm = 5 → t.sreg d = BitVec.ofNat 32 (coreOf s.me.gs / 4)) ∧ (imm = 6 → t.sreg d = s.me.dieId)
      ∧ (imm = 7 → t.sreg d = s.me.gridId) ∧ (imm = 8 → t.sreg d = BitVec.ofNat 32 s.d)
      ∧ (imm = 10 → (∀ tm, s.myTeam = some tm → tm.tiles.length ≤ 16) →
          (t.sreg d).getLsbD 16 = s.kerfBusy
          ∧ ∀ j, j < 16 → (t.sreg d).getLsbD j = decide (j < (s.myTeam.map (·.tiles.length)).getD 0))
      ∧ (imm = 11 → t.sreg d = BitVec.ofNat 32 (s.me.splitRecords + 16 * s.me.overDepth))
      ∧ (imm = 12 → t.sreg d = BitVec.ofNat 32 (s.me.missMany + 65536 * s.me.missOvf)))
    ∧ (Free (.sprr d 0) s → Completes (.sprr d 0) s Group.noVectors fun t =>
      ∀ r k l, k ≤ s.d → l < 32 →
        t.me.vword r k l = if r = d ∧ k = 0 ∧ s.active.getLsbD l then BitVec.ofNat 32 l else s.me.vword r k l)
    ∧ (Free (.sprr d 9) s → Completes (.sprr d 9) s Group.noVectors fun t =>
      ∀ r k l, k ≤ s.d → l < 32 →
        t.me.vword r k l = if r = d ∧ k = 0 ∧ s.active.getLsbD l then (s.flagsOf s.me l).setWidth 32 else s.me.vword r k l)
    -- the value stands over the flags that operations in progress would set
    ∧ (Free (.sprw a 9) s → ∃ u : State, exec (.sprw a 9) s = .next u.settleArrival ∧ FragKept s u
      ∧ u = { s with me := u.me, fr := u.fr, groups := u.groups, ops := u.ops }
      ∧ ({ u.me with tflags := [] } : Group).body = ({ s.me with tflags := [] } : Group).body
      ∧ u.groups.map Group.awake = s.groups.map Group.awake
      ∧ u.ops = (s.ops.map fun (o : Op) =>
          if o.gs = s.me.gs then { o with cap := { o.cap with noFlags := o.cap.noFlags ||| s.active } } else o)
      ∧ (∀ o ∈ u.ops, o.gs = s.me.gs → ∀ x : Returned, s.active.getLsbD x.lane → loadFlag o x = 0)
      ∧ ∀ l, l < 32 → u.me.flags l = if s.active.getLsbD l then (s.srcV a l).setWidth 3 else s.me.flags l)
    ∧ (Free (.sprw a 12) s → Completes (.sprw a 12) s (fun g => { g with missMany := 0, missOvf := 0 }) fun t =>
      t.me.missMany = 0 ∧ t.me.missOvf = 0)
    ∧ (Free (.clkr d) s → Completes (.clkr d) s Group.noScalars fun t =>
      t.sreg (d + 1) ++ t.sreg d = BitVec.ofNat 64 (s.clock s.me.gs) ∧ ∀ k, k ≠ d → k ≠ d + 1 → t.sreg k = s.sreg k)

/-! ## Integer and logical vector instructions -/

/-- R150, R157: integer arithmetic by element, wrapped or clamped, planes zero; the elements of a word joined from elements are those elements, at
each width (R8). -/
def Obligations.IntegerArithmetic : Prop :=
  (∀ (s : State) (d a b imm : Nat),
     let ends := fun (i : Instr) (clamps : Bool) (r : Nat → Nat → Int) =>
       Free i s → Completes i s Group.noVectors fun t => IntIs s t d clamps r
     let w := (etInt (mrEt s.mr)).width
     ends (.iadd d a b) true (fun l j => s.int a l j + s.int b l j)
     ∧ ends (.isub d a b) true (fun l j => s.int a l j - s.int b l j)
     ∧ ends (.imul d a b) true (fun l j => s.int a l j * s.int b l j)
     ∧ ends (.imulh d a b) false (fun l j => s.int a l j * s.int b l j / 2 ^ w)
     ∧ ends (.imad d a b) true (fun l j => s.int a l j * s.int b l j + s.int d l j)
     ∧ ends (.imin d a b) false (fun l j => min (s.int a l j) (s.int b l j))
     ∧ ends (.imax d a b) false (fun l j => max (s.int a l j) (s.int b l j))
     ∧ ends (.iabs d a) true (fun l j => ((s.int a l j).natAbs : Int))
     ∧ ends (.iaddImm d a imm) true
         (fun l j => s.int a l j + (etInt (mrEt s.mr)).value (((BitVec.ofNat 10 imm).signExtend 32).toNat % 2 ^ w)))
  ∧
  (∀ (w : Nat) (es : List Nat) (j : Nat), w = 8 ∨ w = 16 ∨ w = 32 → es.length = 32 / w → j < 32 / w →
     elem w j (joinElems w es) = es.getD j 0 % 2 ^ w)

/-- R150, R157: the shifts by element, the count unsigned, a count of the width or more giving 0 or all sign bits. -/
def Obligations.ElementShifts : Prop :=
  ∀ (s : State) (d a b imm : Nat),
    let ends := fun (i : Instr) (r : Nat → Nat → Int) => Free i s → Completes i s Group.noVectors fun t => IntIs s t d false r
    let w := (etInt (mrEt s.mr)).width
    let left := fun (x c : Nat) => if w ≤ c then (0 : Int) else ((x * 2 ^ c : Nat) : Int)
    let right := fun (x c : Nat) => if w ≤ c then (0 : Int) else ((x / 2 ^ c : Nat) : Int)
    let sign := fun (x c : Nat) => (⟨true, w⟩ : IntType).value x / 2 ^ min c w
    let n := ((BitVec.ofNat 10 imm).signExtend 32).toNat % 2 ^ w
    ends (.shl d a b) (fun l j => left (s.code a l j) (s.code b l j))
    ∧ ends (.shr d a b) (fun l j => right (s.code a l j) (s.code b l j))
    ∧ ends (.sar d a b) (fun l j => sign (s.code a l j) (s.code b l j))
    ∧ ends (.shlImm d a imm) (fun l j => left (s.code a l j) n)
    ∧ ends (.shrImm d a imm) (fun l j => right (s.code a l j) n)
    ∧ ends (.sarImm d a imm) (fun l j => sign (s.code a l j) n)

/-- R150, R154, R155, R157: the whole-word instructions, planes zero; the words of MOVI and LEA. -/
def Obligations.WholeWord : Prop :=
  ∀ (s : State) (d a b f imm : Nat),
    let ends := fun (i : Instr) (w : Nat → Word) => Free i s → Completes i s Group.noVectors fun t => WordIs s t d w
    let x := s.srcV a
    let y := s.srcV b
    let c := (BitVec.ofNat 10 imm).signExtend 32
    ends (.vand d a b) (fun l => x l &&& y l) ∧ ends (.vor d a b) (fun l => x l ||| y l)
    ∧ ends (.vxor d a b) (fun l => x l ^^^ y l) ∧ ends (.vandn d a b) (fun l => x l &&& ~~~(y l))
    ∧ ends (.lea d a b f) (fun l => x l + (y l <<< f)) ∧ ends (.movi d imm) (fun _ => c)
    ∧ ends (.andImm d a imm) (fun l => x l &&& c) ∧ ends (.orImm d a imm) (fun l => x l ||| c)
    ∧ Spelled (.movi d imm) 0x57 [(d, 17), (imm, 0)] ∧ Spelled (.lea d a b f) 0x58 [(d, 17), (a, 10), (b, 3), (f, 0)]

/-- R150, R151: bit counts, reversal and fields, said bit by bit; the words of BFE and BFI. -/
def Obligations.BitFields : Prop :=
  ∀ (s : State) (d a b : Nat),
    let ends := fun (i : Instr) (w : Nat → Word → Prop) => Free i s → Completes i s Group.noVectors fun t =>
      ∃ r : Nat → Word, WordIs s t d r ∧ ∀ l, l < 32 → w l (r l)
    let pos := fun (l : Nat) => (s.srcV b l).toNat % 32
    let stop := fun (l : Nat) => min (pos l + (s.srcV b l).toNat / 256 % 64) 32
    ends (.popc d a) (fun l r => r.toNat = ((List.range 32).filter fun j => (s.srcV a l).getLsbD j).length)
    ∧ ends (.clz d a) (fun l r => r.toNat ≤ 32 ∧ (∀ j, 32 - r.toNat ≤ j → ¬ (s.srcV a l).getLsbD j)
        ∧ (r.toNat < 32 → (s.srcV a l).getLsbD (31 - r.toNat)))
    ∧ ends (.brev d a) (fun l r => ∀ j, j < 32 → r.getLsbD j = (s.srcV a l).getLsbD (31 - j))
    ∧ ends (.bfe d a b) (fun l r =>
        (∀ j, pos l + j < stop l → r.getLsbD j = (s.srcV a l).getLsbD (pos l + j))
        ∧ ∀ j, j < 32 → stop l ≤ pos l + j →
          r.getLsbD j = ((s.srcV b l).getLsbD 15 && decide (pos l < stop l) && (s.srcV a l).getLsbD (stop l - 1)))
    ∧ ends (.bfi d a b) (fun l r => ∀ j, j < 32 → r.getLsbD j =
        if pos l ≤ j ∧ j < stop l then (s.srcV a l).getLsbD (j - pos l) else (s.rdV d l).getLsbD j)
    ∧ Spelled (.bfe d a b) 0x52 [(d, 17), (a, 10), (b, 3)] ∧ Spelled (.bfi d a b) 0x53 [(d, 17), (a, 10), (b, 3)]

/-- R152, R156, R159, R171: the lane predicate written in the active lanes, p0 excepted; nothing else changes. The words of PLOP and TFLAG, and
the fields that make one ill-formed. -/
def Obligations.LanePredicates : Prop :=
  ∀ (s : State) (d a b f : Nat),
    let ends := fun (i : Instr) (v : Nat → Bool) => Free i s → Completes i s Group.noPreds fun t => PredIs s t d v
    let n := etCount (mrEt s.mr)
    let code := fun (x l j : Nat) => elem (etWidth (mrEt s.mr)) j (s.srcV x l)
    (f < 6 → ends (.icmp d a b f) (fun l => (List.range n).all fun j =>
      let x := s.int a l j
      let y := s.int b l j
      [decide (x = y), decide (x ≠ y), decide (x < y), decide (x ≤ y), decide (y < x), decide (y ≤ x)].getD f false))
    ∧ (f < 8 → ends (.plop d a b f) (fun l =>
      let p := (s.rdP a).getLsbD l
      let q := (s.rdP b).getLsbD l
      [p && q, p || q, p != q, p && !q, !p, p, !(p && q), !(p || q)].getD f false))
    ∧ ends (.fcmp d a b f) (fun l => (List.range n).all fun j =>
        (s.fenv (etFormat (mrEt s.mr)) 0 0).compare f (code a l j) (code b l j))
    ∧ ends (.tflag d a) (fun l => (s.flagsOf s.me l).toNat &&& a != 0)
    ∧ Spelled (.plop d a b f) 0x59 [(d, 17), (a, 10), (b, 3), (f, 0)] ∧ (8 ≤ d ∨ 8 ≤ a ∨ 8 ≤ b → ¬ WellFormed (.plop d a b f))
    ∧ Spelled (.tflag d a) 0x86 [(d, 17), (a, 10)] ∧ (a = 0 ∨ 8 ≤ a ∨ 8 ≤ d → ¬ WellFormed (.tflag d a))

/-- R73, R153, R173: data moves copy the word, and under MR.TE = 1 the planes, of the source chosen, and set TZ where one of those is an
infinity or a NaN; under TE = 0 planes are zero. Their words.
Where the spec is silent it holds by the model's own choice: log entry 13. -/
def Obligations.DataMoves : Prop :=
  ∀ (s : State) (d a b f : Nat),
    let ends := fun (i : Instr) (x from' : Nat → Nat) => Free i s → Completes i s Group.noVectorsFlags fun t =>
      VecIs s t d (fun l => s.srcV (x l) (from' l)) (fun k l => if mrTe s.mr then s.srcP (x l) k (from' l) else 0)
      ∧ FlagsAre s t fun l =>
        if mrTe s.mr && (List.range s.d).any fun k => badPlane (mrEt s.mr) (s.srcP (x l) k (from' l)) then flagTZ else 0
    let c := fun (l : Nat) => (s.srcV b l).toNat
    ends (.mov d a) (fun _ => a) id
    ∧ ends (.sel d a b f) (fun l => if (s.rdP f).getLsbD l then a else b) id
    ∧ ends (.shfl d a b 0) (fun _ => a) (fun l => c l % 32)
    ∧ ends (.shfl d a b 1) (fun _ => a) (fun l => if c l ≤ l then l - c l else l)
    ∧ ends (.shfl d a b 2) (fun _ => a) (fun l => if l + c l ≤ 31 then l + c l else l)
    ∧ ends (.shfl d a b 3) (fun _ => a) (fun l => l ^^^ (c l % 32))
    ∧ Spelled (.mov d a) 0x56 [(d, 17), (a, 10)] ∧ Spelled (.sel d a b f) 0x55 [(d, 17), (a, 10), (b, 3), (f, 0)]
    ∧ Spelled (.shfl d a b f) 0x90 [(d, 17), (a, 10), (b, 3), (f, 0)] ∧ (4 ≤ f → ¬ WellFormed (.shfl d a b f))

/-! ## Floating point -/

/-- R72, R146, R158, R163: each float instruction completes with its element results, planes and flags.
Where the spec is silent it holds by the model's own choice: log entries 12, 13, 14. -/
def Obligations.FloatInstructions : Prop :=
  ∀ (s : State) (d a b : Nat),
    let ends := fun (i : Instr) (r : Nat → Nat → Fres) => Free i s → Completes i s Group.noVectorsFlags fun t => FloatIs s t d r
    let two := fun (f : Fenv → Nat → Operand → Operand → Fres) (l j : Nat) => f (s.env l j) s.d (s.src a l j) (s.src b l j)
    let one := fun (f : Fenv → Nat → Operand → Fres) (l j : Nat) => f (s.env l j) s.d (s.src a l j)
    ends (.fadd d a b) (two (·.add false)) ∧ ends (.fsub d a b) (two (·.add true)) ∧ ends (.fmul d a b) (two (·.mul))
    ∧ ends (.ffma d a b) (fun l j => (s.env l j).fma s.d (s.src a l j) (s.src b l j) (s.src d l j))
    ∧ ends (.fmin d a b) (two (·.minMax false)) ∧ ends (.fmax d a b) (two (·.minMax true))
    ∧ ends (.fabs d a) (one (·.abs)) ∧ ends (.fneg d a) (one (·.negate)) ∧ ends (.frint d a) (one (·.rint))
    ∧ ends (.fsat d a) (one (·.unit)) ∧ ends (.sqrt d a) (one (·.root))
    ∧ ends (.rcp d a) (one (·.function .rcp)) ∧ ends (.rsq d a) (one (·.function .rsq))
    ∧ ends (.ex2 d a) (one (·.function .ex2)) ∧ ends (.lg2 d a) (one (·.function .lg2))
    ∧ ends (.sin d a) (one (·.function .sin)) ∧ ends (.cos d a) (one (·.function .cos))
    ∧ ends (.tanh d a) (one (·.function .tanh)) ∧ ends (.sigm d a) (one (·.function .sigm))

/-- R160, R161, R162: FCLASS gives each element its class code, planes zero; FCVT completes, with its destination alone written.
Where the spec is silent it holds by the model's own choice: log entries 13, 14. -/
def Obligations.ClassAndConvert : Prop :=
  ∀ (s : State) (d a b : Nat),
    (Free (.fclass d a) s → Completes (.fclass d a) s Group.noVectors fun t => WordIs s t d fun l =>
      joinElems (etWidth (mrEt s.mr)) ((List.range (etCount (mrEt s.mr))).map fun j =>
        (s.fenv (etFormat (mrEt s.mr)) 0 0).classOf (elem (etWidth (mrEt s.mr)) j (s.srcV a l))))
    ∧ (Free (.fcvt d a b) s → Completes (.fcvt d a b) s Group.noVectorsFlags fun t =>
      (∃ (w : Nat → Word) (p : Nat → Nat → Word), VecIs s t d w p ∧ (mrTe s.mr = false → ∀ k l, p k l = 0)
        -- from F32 to a 32-bit integer: the conversion of the value itself
        ∧ (mrEt s.mr = 2 → b = 8 → ∀ l, l < 32 → w l = BitVec.ofNat 32 ((⟨true, 32⟩ : IntType).convert (Rm.ofCode (mrRm s.mr))
            (s.rnd16 (s.globalId l) 0) ((s.fenv f32 0 0).value (s.srcV a l).toNat))))
      ∧ (mrTe s.mr = false → FlagsAre s t fun _ => 0))

/-- R165 to R168: the planes that the tangent instructions write, and what they leave; a scalar has planes of zero; their words. -/
def Obligations.TangentPlanes : Prop :=
  ∀ (s : State) (d a f : Nat),
    (Free (.tseed d a f) s → Completes (.tseed d a f) s Group.noVectors fun t =>
      VecIs s t d (s.srcV a) fun k _ => if k = f then onesWord (mrEt s.mr) else 0)
    ∧ (Free (.tget d a f) s → Completes (.tget d a f) s Group.noVectors fun t => WordIs s t d fun l => s.srcP a f l)
    ∧ (Free (.tset d a f) s → Completes (.tset d a f) s Group.noVectors fun t => ∀ r k l, k ≤ s.d → l < 32 →
      t.me.vword r k l = if r = d ∧ k = f + 1 ∧ s.active.getLsbD l then s.srcV a l else s.me.vword r k l)
    ∧ (Free (.tclr d) s → Completes (.tclr d) s Group.noVectors fun t => ∀ r k l, k ≤ s.d → l < 32 →
      t.me.vword r k l = if r = d ∧ k ≠ 0 ∧ s.active.getLsbD l then 0 else s.me.vword r k l)
    ∧ (112 ≤ a → ∀ k l, s.srcP a k l = 0)
    ∧ Spelled (.tseed d a f) 0x80 [(d, 17), (a, 10), (f, 0)] ∧ Spelled (.tget d a f) 0x81 [(d, 17), (a, 10), (f, 0)]
    ∧ Spelled (.tset d a f) 0x82 [(d, 17), (a, 10), (f, 0)] ∧ Spelled (.tclr d) 0x83 [(d, 17)]

/-- R169, R170: TLIN and TFOOT complete; TLIN under D = 0 copies its operand's word, and TFOOT writes planes of zero and, where the kernel names no
sx or sy, the value 0 with TD set.
Where the spec is silent it holds by the model's own choice: log entry 13. -/
def Obligations.TangentFunctions : Prop :=
  ∀ (s : State) (d a b : Nat),
    (Free (.tlin d a b) s → Completes (.tlin d a b) s Group.noVectors fun t =>
      ∃ (w : Nat → Word) (p : Nat → Nat → Word), VecIs s t d w p
        ∧ (s.d = 0 → ∀ l, l < 32 → s.active.getLsbD l → mrEt s.mr = 2 → w l = s.srcV a l)
        ∧ (mrTe s.mr = false → ∀ k l, p k l = 0))
    ∧ (Free (.tfoot d a b) s → Completes (.tfoot d a b) s Group.noVectorsFlags fun t =>
      (∃ w : Nat → Word, WordIs s t d w ∧ (s.me.sx = none ∨ s.me.sy = none → ∀ l, w l = 0))
      ∧ FlagsAre s t fun _ => if s.me.sx = none ∨ s.me.sy = none then flagTD else 0)

/-! ## Cross-lane instructions -/

/-- R176: REDU gives every active lane one word: for ADD on 32-bit integers without SAT the sum over the active lanes modulo 2^32,
and for AND, OR and XOR the bitwise combination of their words. -/
def Obligations.Reduction : Prop :=
  ∀ (s : State) (d a f : Nat), Free (.redu d a f) s → Completes (.redu d a f) s Group.noVectorsFlags fun t =>
    ∃ (w : Word) (p : Nat → Word), VecIs s t d (fun _ => w) (fun k _ => p k)
      ∧ (f = 0 → mrEt s.mr ≤ 1 → mrSat s.mr = false →
          w = (lanesOf s.active).foldl (fun (x : Word) l => x + s.srcV a l) 0)
      ∧ (f = 3 → s.active ≠ 0 → w = (lanesOf s.active).foldl (fun (x : Word) l => x &&& s.srcV a l) (BitVec.allOnes 32))
      ∧ (f = 4 → w = (lanesOf s.active).foldl (fun (x : Word) l => x ||| s.srcV a l) 0)
      ∧ (f = 5 → w = (lanesOf s.active).foldl (fun (x : Word) l => x ^^^ s.srcV a l) 0)

/-- R178: SCAN combines upward from b's word in the first active lane: for ADD on 32-bit integers without SAT, lane l receives that
word plus the words of the active lanes below it, its own included in the inclusive form. -/
def Obligations.ScanAdds : Prop :=
  ∀ (s : State) (d a b f : Nat), Free (.scan d a b f) s → Completes (.scan d a b f) s Group.noVectorsFlags fun t =>
    ∃ (w : Nat → Word) (p : Nat → Nat → Word), VecIs s t d w p
      ∧ (f < 2 → mrEt s.mr ≤ 1 → mrSat s.mr = false → ∀ l, l < 32 → s.active.getLsbD l →
          w l = ((lanesOf s.active).filter fun m => if f = 0 then decide (m ≤ l) else decide (m < l)).foldl
            (fun (x : Word) m => x + s.srcV a m) (s.srcV b (firstLane s.active)))

/-- R177, R55: MINIDX gives every active lane the number of an active lane that holds the least value, or the greatest, by integers or by F32;
of equal values the lowest such lane, and NaN only where every active lane holds it. -/
def Obligations.IndexOfExtreme : Prop :=
  ∀ (s : State) (d a f : Nat), Free (.minidx d a f) s → Completes (.minidx d a f) s Group.noVectors fun t =>
    ∃ m : Nat, WordIs s t d (fun _ => BitVec.ofNat 32 m)
      ∧ (s.active ≠ 0 → m < 32 ∧ s.active.getLsbD m
        ∧ (mrEt s.mr ≤ 1 → ∀ l, l < 32 → s.active.getLsbD l →
            let x := (etInt (mrEt s.mr)).value (s.srcV a m).toNat
            let y := (etInt (mrEt s.mr)).value (s.srcV a l).toNat
            (f = 0 → x ≤ y) ∧ (f = 1 → y ≤ x) ∧ (x = y → m ≤ l))
        -- F32: NaN only where every lane holds it, and −0 below +0 (R55)
        ∧ (mrEt s.mr = 2 → ∀ l, l < 32 → s.active.getLsbD l →
            let x := (s.fenv f32 0 0).read (s.srcV a m).toNat
            let y := (s.fenv f32 0 0).read (s.srcV a l).toNat
            (f32.isNan x = true → f32.isNan y = true ∧ m ≤ l)
            ∧ (f32.isNan x = false → f32.isNan y = false →
                (f = 0 → (f32.value y).below (f32.value x) = false) ∧ (f = 1 → (f32.value x).below (f32.value y) = false) ∧ (x = y → m ≤ l))))

/-- R66 to R69, R179: the row statistics write the results of the lane's own step in consecutive registers, values and planes; no other
register or lane changes. SMXN also writes the predicate of empty rows.
Where the spec is silent it holds by the model's own choice: log entries 13, 14. -/
def Obligations.RowStatistics : Prop :=
  ∀ (s : State) (d a b f : Nat),
    let e := fun (l : Nat) => s.fenv f32 (s.globalId l) 0
    let e' := fun (l : Nat) => ({ e l with sat := false } : Fenv)
    let rows := fun (n : Nat) (g : Nat → List Dual) (t : State) =>
      (∀ j k l, j < n → k ≤ s.d → l < 32 → s.active.getLsbD l →
        let x := (e l).finish s.d ((g l).getD j (constDual 0))
        t.me.vword (d + j) k l = BitVec.ofNat 32 (if k = 0 then x.val else x.ds.getD (k - 1) 0))
      ∧ (∀ r k l, k ≤ s.d → l < 32 → (r < d ∨ d + n ≤ r ∨ ¬ s.active.getLsbD l) → t.me.vword r k l = s.me.vword r k l)
      ∧ FlagsAre s t fun l => laneFlags ((g l).map ((e l).finish s.d))
    (Free (.welf d a b) s → Completes (.welf d a b) s Group.noVectorsFlags (rows 3 fun l =>
      (e' l).welf s.d (s.dual a l) (s.dual (a + 1) l) (s.dual (a + 2) l) (s.dual b l) (s.dual (b + 1) l) (s.dual (b + 2) l)))
    ∧ (Free (.smxm d a b) s → Completes (.smxm d a b) s Group.noVectorsFlags (rows 2 fun l =>
      (e' l).smxm s.d (s.dual a l) (s.dual (a + 1) l) (s.dual b l) (s.dual (b + 1) l)))
    ∧ (Free (.smxn d a b f) s →
      Completes (.smxn d a b f) s (fun g => { g with vregs := [], tflags := [], preds := [] }) fun t =>
        rows 1 (fun l => [((e' l).smxn s.d (s.dual a l) (s.dual b l) (s.dual (b + 1) l)).1]) t
        ∧ PredIs s t f fun l => decide ((s.dual b l).val = 0xFF800000) && f32.isZero ((e' 0).read (s.dual (b + 1) l).val))

/-! ## Issue, traps and returns -/

/-- R91, R441: with the waits before the checks over, an instruction whose word, registers, MR, plane or control word breaks a rule traps
ILLEGAL; one that passes but touches a pending register traps LOOKAHEAD with its distance; one that passes both but names a bad handle
traps HANDLE with the place of the fault. A word that stands for no instruction traps ILLEGAL.
Where the spec is silent it holds by the model's own choice: log entries 10, 11. -/
def Obligations.IssueChecks : Prop :=
  (∀ (i : Instr) (s : State), isKernel i = true → s.live = true → s.waitsFirst = false → s.dueTrap = none → s.dueBlocked = false →
     s.siblingPending i = false → s.txBroken i = false →
     -- SLD and SST stand for the whole fragment, whatever the guard
     let lanes := match i with | .sld .. | .sst .. => s.fr.exec | _ => s.active
     (s.checksOk i = false → exec i s = .next (s.trapAt i (Trap.plain 4 0 lanes)))
     ∧ (∀ n, s.checksOk i = true → s.lookahead i = some n → exec i s = .next (s.trapAt i (Trap.plain 5 n lanes)))
     ∧ (∀ n, s.checksOk i = true → s.lookahead i = none → s.handleTrap i = some n →
         exec i s = .next (s.trapAt i (Trap.plain 7 n lanes))))
  ∧
  (∀ (w : Nat) (s : State), s.live = true → s.gate (.evIllegalWord w) = .go ∨ s.gate (.evIllegalWord w) = .trap (Trap.plain 4 0 s.active) →
     exec (.evIllegalWord w) s = .next (s.trapAt (.evIllegalWord w) (Trap.plain 4 0 s.active)))

/-- R120, R121, R444: the first trap of a group writes its frame and starts the handler: PC at the vector, MR at its reset value, CLR 0, the
lanes unchanged, s60 to s63 the frame's address, the cause and the low PC; every other scalar, the vector registers and predicates are
unchanged, and every other fragment of the group is held. Memory is what the frame's write leaves. A frame whose stack is not up is waited for
(R469). -/
def Obligations.TrapEntry : Prop :=
  ∀ (s s' : State) (t : Trap) (word : Nat) (fpc : Addr) (queue : List Captured),
    s.me.handler = none → s.frameWaits t word fpc queue false = false → s.writeFrame t word fpc queue false = some s' → s.trapVector ≠ 0 →
    ∃ u : State, s.raise t word fpc queue = some u ∧
    u.fr.pc = BitVec.ofNat 64 s.trapVector ∧ u.fr.mr = mrReset s.d ∧ u.fr.clr = 0 ∧ u.fr.exec = s.fr.exec
    ∧ u.sreg 60 = BitVec.ofNat 32 s'.frameVa ∧ u.sreg 61 = BitVec.ofNat 32 (s'.frameVa / 2 ^ 32)
    ∧ u.sreg 62 = BitVec.ofNat 32 (t.cause + t.sub % 2 ^ 18 * 2 ^ 8) ∧ u.sreg 63 = fpc.setWidth 32
    ∧ (∀ k, k < 60 ∨ 63 < k → u.sreg k = s.sreg k)
    ∧ u.me.vregs = s.me.vregs ∧ u.me.preds = s.me.preds ∧ u.me.qs = s.me.qs ∧ u.me.tflags = s.me.tflags
    ∧ u.me.handler.isSome = true ∧ (∀ f ∈ u.me.frags, f.held = true) ∧ u.memory = s'.memory

/-- R119: TRAP enters the handler with cause 11 and its immediate as subcode; the frame PC is past it.
Where the spec is silent it holds by the model's own choice: log entry 18. -/
def Obligations.TrapInstruction : Prop :=
  ∀ (imm : Nat) (s s' : State), Free (.trap imm) s → s.undrained = false → (∀ x, s.me.tx.st ≠ .opened x) → s.me.handler = none →
    (let q := (s.withdrawn.map fun (o : Op) => { o.cap with withdrawn := true, trapping := false })
       ++ s.stamp.fr.inject.map fun (c : Captured) => { c with trapping := false }
     let u := s.stamp.dropOps s.withdrawn
     let t := Trap.plain 11 imm s.fr.exec
     u.frameWaits t (wordOf (.trap imm)) s.nextPc q false = false
     ∧ u.writeFrame t (wordOf (.trap imm)) s.nextPc q false = some s') →
    s.trapVector ≠ 0 →
    ∃ u : State, exec (.trap imm) s = .next u.settleArrival ∧ u.fr.pc = BitVec.ofNat 64 s.trapVector
      ∧ u.sreg 62 = BitVec.ofNat 32 (11 + imm % 2 ^ 18 * 2 ^ 8) ∧ u.sreg 63 = s.nextPc.setWidth 32
      ∧ u.me.handler.isSome = true

/-- R122, R448: TRET goes back to the interrupted PC with the EXEC, CLR and MR of the frame, no lane added, the scalars s60 to s63
of the frame, and the joins and the transaction of the trap; no fragment of the group stays held, and memory is unchanged. Outside a
handler it traps ILLEGAL.
Where the spec is silent it holds by the model's own choice: log entries 15, 18. -/
def Obligations.TrapReturn : Prop :=
  ∀ s : State, Free .tret s →
    (s.me.handler = none → exec .tret s = .next (s.trapAt .tret (Trap.plain 4 0 s.fr.exec)))
    ∧ ∀ h head queue, s.me.handler = some h → s.returnWaits h = false → s.deviceRead s.myGridKey s.me.ctx (h.frame + 0x10) 0x1C = some head →
      s.rereadQueue s.myGridKey s.me.ctx h.frame s.d 0 imageOffset h.queue = some queue →
      let lanes := BitVec.ofNat 32 (fieldAt head 0 4) &&& h.heldLanes
      lanes ≠ 0 →
      ∃ u : State, exec .tret s = .next u.settleArrival
        ∧ u.fr.pc = h.fpc ∧ u.fr.exec = lanes ∧ u.fr.mr = fieldAt head 8 4 % 2 ^ 14
        ∧ u.fr.clr = (BitVec.ofNat 32 (fieldAt head 4 4) &&& ~~~lanes &&& (h.heldLanes ||| h.clr)) ∧ u.fr.inject = queue
        ∧ (∀ i, i < 4 → u.sreg (60 + i) = BitVec.ofNat 32 (fieldAt head (12 + 4 * i) 4))
        ∧ (∀ k, k < 60 ∨ 63 < k → u.sreg k = s.sreg k)
        ∧ u.me.handler = none ∧ u.me.joins = h.joins ∧ u.me.tx = h.tx ∧ (∀ f ∈ u.me.frags, f.held = false)
        ∧ u.me.vregs = s.me.vregs ∧ u.memory = s.memory

/-! ## Control flow -/

/-- R104, R105: NOP has no effect but to count in each window it falls in, and a word of its opcode with another bit set is no instruction and
traps ILLEGAL; SETM replaces MR. -/
def Obligations.ModeAndNop : Prop :=
  ∀ (s : State) (m : Nat),
    (Free .nop s → Completes .nop s id (fun _ => True) ∧ ∃ u : State, exec .nop s = .next u.settleArrival ∧ WindowsCount s u)
    ∧ Spelled .nop 0x01 []
    ∧ (∀ w, 0x01000000 < w → w < 0x02000000 → (∃ e, decodeWord w = .error e)
        ∧ (s.live = true → s.gate (.evIllegalWord w) = .go →
            exec (.evIllegalWord w) s = .next (s.trapAt (.evIllegalWord w) (Trap.plain 4 0 s.active))))
    ∧ (Free (.setm m) s → ∃ u : State, exec (.setm m) s = .next u.settleArrival
        ∧ u.fr = { s.fr with mr := m, pc := s.nextPc, last := u.fr.last, wins := u.fr.wins, inject := u.fr.inject }
        ∧ Frame id s u.settleArrival)

/-- R83, R107, R110, R111, R113 to R116: a transfer of control by a whole fragment goes to its target, or to the next word, and changes nothing but PC
and, for CALL, CALLS and RET, the link stack. A misaligned target traps ALIGN with that address; a call at a full link stack traps SPLIT with
subcode 1, after the split where a CALL's guard holds in some lanes and not in others, and a return at an empty one SPLIT with subcode 2.
Where the spec is silent it holds by the model's own choice: log entry 15. -/
def Obligations.WholeFragmentTransfers : Prop :=
  (∀ (s : State) (p n tgt rcv a : Nat),
     let goes := fun (i : Instr) (goal : Addr) (links : List Addr) => ∃ u : State, exec i s = .next u.settleArrival
       ∧ u.fr = { s.fr with pc := goal, links := links, last := u.fr.last, wins := u.fr.wins, inject := u.fr.inject }
       ∧ Frame id s u.settleArrival
     let near := s.pc + 4 * (BitVec.ofNat 10 tgt).signExtend 64
     let far := s.rdS64 a
     let t := s.branchLanes p n
     (Free (.bra p n tgt rcv) s → t = s.fr.exec → goes (.bra p n tgt rcv) near s.fr.links)
     ∧ (Free (.bra p n tgt rcv) s → t = 0 → s.fr.exec ≠ 0 → goes (.bra p n tgt rcv) s.nextPc s.fr.links)
     ∧ (Free (.bru p n tgt rcv) s → s.rdQ p = (n != 1) → goes (.bru p n tgt rcv) near s.fr.links)
     ∧ (Free (.bru p n tgt rcv) s → s.rdQ p = (n == 1) → goes (.bru p n tgt rcv) s.nextPc s.fr.links)
     ∧ (Free (.jmps a) s → far.toNat % 4 = 0 → goes (.jmps a) far s.fr.links)
     ∧ (Free (.call p n tgt) s → t = 0 → goes (.call p n tgt) s.nextPc s.fr.links)
     ∧ (Free (.call p n tgt) s → t = s.fr.exec → t ≠ 0 → s.fr.links.length ≠ 32 → goes (.call p n tgt) near ((s.pc + 4) :: s.fr.links))
     ∧ (Free (.calls a) s → far.toNat % 4 = 0 → s.fr.links.length ≠ 32 → goes (.calls a) far ((s.pc + 4) :: s.fr.links))
     ∧ (∀ back rest, Free .ret s → s.fr.links = back :: rest → goes .ret back rest))
  ∧
  (∀ (s : State) (a p n tgt : Nat),
     let far := s.rdS64 a
     let t := s.branchLanes p n
     let call : Instr := .call p n tgt
     let align : Trap := { cause := 8, sub := 0, addr := far.toNat, race := [], lanes := s.fr.exec }
     (Free (.jmps a) s → far.toNat % 4 ≠ 0 → exec (.jmps a) s = .next (s.trapAt (.jmps a) align))
     ∧ (Free (.calls a) s → far.toNat % 4 ≠ 0 → exec (.calls a) s = .next (s.trapAt (.calls a) align))
     ∧ (Free (.calls a) s → far.toNat % 4 = 0 → s.fr.links.length = 32 →
         exec (.calls a) s = .next (s.trapAt (.calls a) (Trap.plain 10 1 s.fr.exec)))
     ∧ (Free call s → t = s.fr.exec → t ≠ 0 → s.fr.links.length = 32 → exec call s = .next (s.trapAt call (Trap.plain 10 1 t)))
     -- the child that goes on takes the trap; the other waits at the join
     ∧ (Free call s → t ≠ s.fr.exec → t ≠ 0 → s.fr.links.length = 32 → s.me.splitRecords ≠ 8 → ∃ u : State,
         exec call s = .next ((u.trapAt? call (Trap.plain 10 1 t)).getD s)
         ∧ u.fr.exec = t ∧ u.fr.clr = 0 ∧ u.fr.pc = s.pc ∧ u.fr.links = s.fr.links ∧ u.memory = s.memory
         ∧ (∃ f ∈ u.me.frags, f.id = s.me.nextFrag ∧ f.exec = s.fr.exec &&& ~~~t ∧ f.pc = s.pc + 4 ∧ f.links = s.fr.links)
         ∧ ∃ j ∈ u.me.joins, j.mask = s.fr.exec ∧ j.depth = 32 ∧ j.addr = some (s.pc + 4))
     ∧ (Free call s → t ≠ s.fr.exec → t ≠ 0 → s.fr.links.length = 32 → s.me.splitRecords = 8 → s.me.overDepth ≠ 16 → ∃ u : State,
         exec call s = .next ((u.trapAt? call (Trap.plain 10 1 t)).getD s)
         ∧ u.fr.exec = t ∧ u.fr.clr = 0 ∧ u.fr.pc = s.pc ∧ u.fr.links = s.fr.links ∧ u.memory = s.memory ∧ u.me.frags = s.me.frags
         ∧ ∃ j ∈ u.me.joins, j.spill = true ∧ j.mask = s.fr.exec ∧ j.dmask = s.fr.exec &&& ~~~t ∧ j.depth = 32 ∧ j.dpc = s.pc + 4)
     ∧ (Free .ret s → s.fr.links = [] → exec .ret s = .next (s.trapAt .ret (Trap.plain 10 2 s.fr.exec))))

/-- R106, R107, R114: a branch or call whose guard holds in some lanes and not in others splits its fragment while a split record is free: the lanes that
take it go on at the target, a call's with the return address pushed, and the others in a fragment of their own at the next word; a record holds the
fragment's lanes, CLR, MR and depth, and the reconvergence address where the word gives one. With every split record in use the lanes that do
not go are deferred in an overflow entry; with no entry left either, the branch or the call traps SPLIT with subcode 0. -/
def Obligations.BranchSplits : Prop :=
  (∀ (s : State) (p n tgt rcv : Nat),
     let t := s.branchLanes p n
     let goal := s.pc + 4 * (BitVec.ofNat 10 tgt).signExtend 64
     let parts := fun (i : Instr) (links : List Addr) (addr : Option Addr) => ∃ u : State,
       exec i s = .next (u.settlePair s.me.nextFrag).settleArrival
       ∧ u.fr.exec = t ∧ u.fr.clr = 0 ∧ u.fr.pc = goal ∧ u.fr.links = links
       ∧ (∃ f, u.me.frags = f :: s.me.frags ∧ f.id = s.me.nextFrag ∧ f.exec = s.fr.exec &&& ~~~t ∧ f.clr = 0 ∧ f.pc = s.pc + 4
           ∧ f.mr = s.fr.mr ∧ f.links = s.fr.links ∧ f.st = .running)
       ∧ (∃ j, u.me.joins = j :: s.me.joins ∧ j.spill = false ∧ j.mask = s.fr.exec ∧ j.clr = s.fr.clr ∧ j.mr = s.fr.mr ∧ j.wait = 0
           ∧ j.depth = s.fr.links.length ∧ j.addr = addr)
       ∧ Frame id s ((u.settlePair s.me.nextFrag).settleArrival)
     t ≠ 0 → t ≠ s.fr.exec → s.me.splitRecords ≠ 8 →
     (Free (.bra p n tgt rcv) s → parts (.bra p n tgt rcv) s.fr.links
       (if rcv = 0 then none else some (s.pc + BitVec.ofNat 64 (4 * rcv))))
     ∧ (Free (.call p n tgt) s → s.fr.links.length ≠ 32 → parts (.call p n tgt) ((s.pc + 4) :: s.fr.links) (some (s.pc + 4))))
  ∧
  (∀ (s : State) (p n tgt rcv : Nat),
     let t := s.branchLanes p n
     let spills := fun (i : Instr) (links : List Addr) (addr : Option Addr) =>
       (s.me.overDepth = 16 → exec i s = .next (s.trapAt i (Trap.plain 10 0 s.fr.exec)))
       ∧ (s.me.overDepth ≠ 16 → s.fr.links.length ≠ 32 ∨ links = s.fr.links → ∃ u : State,
           exec i s = .next (u.settlePair s.me.nextFrag).settleArrival
           ∧ u.fr.exec = t ∧ u.fr.clr = 0 ∧ u.fr.pc = s.pc + 4 * (BitVec.ofNat 10 tgt).signExtend 64 ∧ u.fr.links = links
           ∧ u.me.frags = s.me.frags ∧ ∃ j, u.me.joins = j :: s.me.joins ∧ j.spill = true ∧ j.mask = s.fr.exec
             ∧ j.dmask = s.fr.exec &&& ~~~t ∧ j.clr = s.fr.clr ∧ j.mr = s.fr.mr ∧ j.depth = s.fr.links.length ∧ j.addr = addr
             ∧ j.dpc = s.pc + 4 ∧ j.dstate = 0
             ∧ (s.me.overDepth < 16 → j.slot < 16 ∧ ∀ x ∈ s.me.joins, x.spill = true → x.slot ≠ j.slot))
     t ≠ 0 → t ≠ s.fr.exec → s.me.splitRecords = 8 →
     (Free (.bra p n tgt rcv) s → spills (.bra p n tgt rcv) s.fr.links (if rcv = 0 then none else some (s.pc + BitVec.ofNat 64 (4 * rcv))))
     ∧ (Free (.call p n tgt) s → spills (.call p n tgt) ((s.pc + 4) :: s.fr.links) (some (s.pc + 4))))

/-- R29, R109, R130: SYNC gives the innermost open record its address, and leaves one that has an address; EXECW sets EXEC to the lanes of
its word that the fragment holds, and moves the lanes it takes out to CLR.
Where the spec is silent it holds by the model's own choice: log entry 15. -/
def Obligations.LanesAndJoins : Prop :=
  ∀ (s : State) (rcv a : Nat),
    (Free (.sync rcv) s → ∃ u : State, exec (.sync rcv) s = .next u.settleAll.settleArrival ∧ FragKept s u
      ∧ Frame id s u.settleAll.settleArrival
      ∧ (∀ j, s.me.inner s.fr.owned = some j → j.addr = none → u.me.joins = s.me.joins.map fun x =>
          if x.same j then { x with addr := if rcv = 0 then none else some (s.pc + BitVec.ofNat 64 (4 * rcv)) } else x)
      ∧ (∀ j, s.me.inner s.fr.owned = some j → j.addr ≠ none → u.me.joins = s.me.joins)
      ∧ (s.me.inner s.fr.owned = none → u.me.joins = s.me.joins))
    ∧ (Free (.execw a) s → s.rdS a &&& (s.fr.exec ||| s.fr.clr) ≠ 0 → ∃ u : State, exec (.execw a) s = .next u.settleArrival
      ∧ u.fr.exec = s.rdS a &&& (s.fr.exec ||| s.fr.clr)
      ∧ (∀ l, l < 32 → u.fr.clr.getLsbD l = ((s.fr.exec ||| s.fr.clr).getLsbD l && !(s.rdS a).getLsbD l))
      ∧ u.fr.pc = s.nextPc ∧ u.fr.mr = s.fr.mr ∧ u.fr.links = s.fr.links ∧ Frame id s u.settleArrival)
    ∧ (Free (.execw a) s → s.rdS a &&& (s.fr.exec ||| s.fr.clr) = 0 → ∃ u : State,
      exec (.execw a) s = .next (u.emptied s.nextPc).settleArrival ∧ u.fr.exec = 0 ∧ u.fr.clr = s.fr.exec ||| s.fr.clr)

/-- R117, R118: EXIT ends its lanes: no fragment of the group holds one of them afterwards, and memory is unchanged; in a cluster launch it waits for
the team's first CBAR phase. R123, R124, R403: PPT without a request only counts as an issue; with one, once its map's read is accepted, its fragment
stops there and keeps the map, or traps ILLEGAL where the map breaks R124. R126, R395: YIELD takes its group out of issue choice and sets its wait count to 0.
Where the spec is silent it holds by the model's own choice: log entries 15, 17. -/
def Obligations.ExitStopYield : Prop :=
  (∀ s : State, Free .exit s →
     (s.exitWaits = true → exec .exit s = .next s)
     ∧ (s.exitWaits = false → ∃ t : State, exec .exit s = .next t ∧ (∀ f ∈ t.me.frags, f.exec &&& s.fr.exec = 0)
         ∧ t.fr.exec = 0 ∧ t.memory = s.memory))
  ∧
  (∀ (s : State) (imm : Nat), Free (.ppt imm) s →
     (s.requested = false → Completes (.ppt imm) s id fun _ => True)
     ∧ ∀ e ks paid, s.requested = true → s.engineRead s.myGridKey s.me.ctx (s.packetField 0x30 8 + 64 * imm) 64 = .ok e →
         s.keys s.myGridKey s.me.ctx Need.load (s.packetField 0x30 8 + 64 * imm) 64 = .ok ks → s.acceptMem s.me.gs ks = some paid →
         (liveMapOk s.myBytes e = true →
           exec (.ppt imm) s = .next { paid with fr := { s.fr with st := .stopped, liveMap := some (leNat e) } })
         ∧ (liveMapOk s.myBytes e = false → exec (.ppt imm) s = .next (s.trapAt (.ppt imm) (Trap.plain 4 0 s.fr.exec))))
  ∧
  (∀ s : State, Free .yield s → Completes .yield s Group.awake fun t => t.me.yielded = some s.now ∧ t.me.waitCount = 0)

/-- R127, R128: RSCOPE adds its registers, rounded up to a multiple of 4, which read as 0; RSEND takes the innermost scope's away, and leaves
those below as they are.
Where the spec is silent it holds by the model's own choice: log entry 16. -/
def Obligations.Scopes : Prop :=
  ∀ (s : State) (imm : Nat),
    let m := (imm + 3) / 4 * 4
    let rest := fun (g : Group) => { g with vregs := [], alloc := 0, scopes := [], wantsScope := none, granted := false }
    (Free (.rscope imm) s → s.me.frags = [] → s.me.scopes.length ≠ 8 → s.me.alloc + m ≤ 112 →
      charge s.d (s.me.alloc + m) ≤ 49152 → s.me.granted = true ∨ (s.scopeFits m = true ∧ s.scopeTurn = true) →
      Completes (.rscope imm) s rest fun t =>
        t.me.alloc = s.me.alloc + m ∧ t.me.scopes = m :: s.me.scopes ∧ t.me.wantsScope = none
        ∧ ∀ r k l, k ≤ s.d → l < 32 → t.me.vword r k l = if r < s.me.alloc then s.me.vword r k l else 0)
    ∧ ∀ n ns, Free .rsend s → s.me.frags = [] → s.me.scopes = n :: ns → Completes .rsend s rest fun t =>
        t.me.alloc = s.me.alloc - n ∧ t.me.scopes = ns
        ∧ ∀ r k l, k ≤ s.d → l < 32 → r < s.me.alloc - n → t.me.vword r k l = s.me.vword r k l

/-! ## Loads, stores and atomics -/

/-- R26, R85, R180, R181, R183, R185 to R187, R195, R196: a vector memory instruction whose lanes' addresses are aligned and reach memory
issues one operation that will access each active lane's bytes; registers and memory are as before. R33, R73: a lane whose stored or atomic
operands carry tangents has TD set, unless an SPRW has given its flags since the instruction first issued. A misaligned lane traps ALIGN, the
lowest such lane's address with it; lanes whose address does not reach memory park while the others perform; with no active lane nothing
happens. R335: an atomic that releases, or acquires, ends the group's region for each.
Where the spec is silent it holds by the model's own choice: log entries 13, 15, 19, 44. -/
def Obligations.VectorMemory : Prop :=
  ∀ (s : State) (d a k la : Nat),
    let at' := fun (l : Nat) => s.laneAddr a k l
    let runs := fun (i : Instr) (n : Nat) (need : Need) (nums : List Nat) (data : Nat → Nat) (erase : Group → Group) (P : State → Prop) =>
      let at'' := fun (l : Nat) => s.resolve s.myGridKey s.me.ctx (s.me.handler.map (·.frame)) need (at' l) n
      let reaches := fun (l : Nat) (key : Nat) (chk : Bool) => at'' l = .ok key chk ∧ ¬ (floatAtomic nums = true ∧ key / 2 ^ 48 = 1)
      (Free i s → s.active = 0 → Completes i s id fun _ => True)
      ∧ (∀ l, Free i s → l < 32 → s.active.getLsbD l → at' l % n ≠ 0 → (∀ m, m < l → s.active.getLsbD m → at' m % n = 0) →
          exec i s = .next (s.trapAt i { cause := 8, sub := 0, addr := at' l, race := [], lanes := s.active }))
      ∧ (Free i s → (∀ x, s.me.tx.st ≠ .opened x) → s.active ≠ 0 → ∀ (key : Nat → Nat) (chk : Nat → Bool),
          (∀ l, l < 32 → s.active.getLsbD l → at' l % n = 0 ∧ reaches l (key l) (chk l)) →
          OpensAs i s s.active nums ((lanesOf s.active).map fun l =>
            { lane := l, part := 0, va := at' l, pa := key l, size := n, data := data l, chk := chk l }) erase P)
      ∧ (Free i s → (∀ x, s.me.tx.st ≠ .opened x) → s.ringInUse = true → ∀ (bad : Mask) (why : Nat → NoAccess) (m : Nat),
          m < 32 → bad.getLsbD m → (why m).service = true →
          (∀ l, l < 32 → bad.getLsbD l → at' m < at' l ∨ (at' m = at' l ∧ m ≤ l)) →
          (∀ l, l < 32 → bad.getLsbD l → s.active.getLsbD l ∧ at'' l = .no (why l) ∧ (why l).cause ≠ 0) →
          (∀ l, l < 32 → s.active.getLsbD l → at' l % n = 0 ∧ (bad.getLsbD l = false → ∃ key chk, reaches l key chk)) →
          Parks i s s.active bad (why m).cause (at' m) need.wr)
    let loads := fun (i : Instr) (n : Nat) => runs i n Need.load [] (fun _ => 0) id fun _ => True
    let tangent := fun (m l : Nat) => s.active.getLsbD l && !((s.ov.map Captured.noFlags).getD 0).getLsbD l
      && (List.range m).any fun j => decide (d + j < 112) && s.hasTangent (d + j) l
    let flags := fun (m : Nat) (u : State) => ∀ l, l < 32 →
      u.flagsOf u.me l = if tangent m l then s.flagsOf s.me l ||| flagTD else s.flagsOf s.me l
    let stores := fun (i : Instr) (n m : Nat) (data : Nat → Nat) => runs i n Need.store [] data id (flags m)
    let word := fun (j l : Nat) => (s.srcV (d + j) l).toNat
    let c := (s.rdS (k + 2)).toNat
    let order := atomOrd c
    let atomics := fun (i : Instr) => runs i (atomSize c) Need.both [c] (fun l => s.atomData c d l) Group.noSync fun u =>
        flags ((if atomType c = 3 then 2 else 1) * (if atomOp c = 1 then 2 else 1)) u
        ∧ u.me.race.rg = s.me.race.rg + order / 2 + order % 2
        ∧ (order / 2 = 1 → u.me.race.release = s.me.race.rg + 1 ∧ u.me.race.releaseScope = atomScope c)
        ∧ (order / 2 = 0 → u.me.race.release = s.me.race.release)
    loads (.ldU8 d a k la) 1 ∧ loads (.ldS8 d a k la) 1 ∧ loads (.ldU16 d a k la) 2 ∧ loads (.ldS16 d a k la) 2
    ∧ loads (.ldB32 d a k la) 4 ∧ loads (.ldB64 d a k la) 8 ∧ loads (.ldB128 d a k la) 16
    ∧ stores (.stB8 d a k la) 1 1 (fun l => word 0 l % 2 ^ 8) ∧ stores (.stB16 d a k la) 2 1 (fun l => word 0 l % 2 ^ 16)
    ∧ stores (.stB32 d a k la) 4 1 (word 0) ∧ stores (.stB64 d a k la) 8 2 (fun l => word 0 l + word 1 l * 2 ^ 32)
    ∧ stores (.stB128 d a k la) 16 4 (fun l => word 0 l + word 1 l * 2 ^ 32 + word 2 l * 2 ^ 64 + word 3 l * 2 ^ 96)
    ∧ atomics (.atom d a k la) ∧ atomics (.red d a k la)

/-- R26, R180, R181, R190, R191: LDT and STT access a lane's record of 1 + D words, the value and then its planes. R142, R213: SLD and SST access
the word at their scalar pair plus an offset of 4 × a bytes, whatever the guard and however many lanes EXEC holds; MARM that of the first active
lane's address, and with no active lane it disarms the watch, a MARM still to perform included. A misaligned address traps ALIGN; lanes whose
address does not reach memory park, of SLD, SST and MARM the whole fragment. R192: PRF changes no register and no memory; it waits for a request
that its budget does not admit yet.
Where the spec is silent it holds by the model's own choice: log entries 15, 19, 22, 44, 50. -/
def Obligations.TangentMemory : Prop :=
  (∀ (s : State) (d a k la : Nat),
     let at' := fun (l : Nat) => s.laneAddr a k l
     let runs := fun (i : Instr) (need : Need) (data : Nat → Nat → Nat) =>
       let piece := fun (l j : Nat) => (at' l + 4 * j) % 2 ^ 64
       let at'' := fun (l j : Nat) => s.resolve s.myGridKey s.me.ctx (s.me.handler.map (·.frame)) need (piece l j) 4
       (Free i s → s.active = 0 → Completes i s id fun _ => True)
       ∧ (∀ l, Free i s → l < 32 → s.active.getLsbD l → at' l % 4 ≠ 0 → (∀ m, m < l → s.active.getLsbD m → at' m % 4 = 0) →
           exec i s = .next (s.trapAt i { cause := 8, sub := 0, addr := at' l, race := [], lanes := s.active }))
       ∧ (Free i s → (∀ x, s.me.tx.st ≠ .opened x) → s.active ≠ 0 → ∀ (key : Nat → Nat → Nat) (chk : Nat → Nat → Bool),
           (∀ l, l < 32 → s.active.getLsbD l → at' l % 4 = 0 ∧ ∀ j, j ≤ s.d → at'' l j = .ok (key l j) (chk l j)) →
           Opens i s s.active [] ((lanesOf s.active).flatMap fun l => (List.range (s.d + 1)).map fun j =>
             { lane := l, part := j, va := piece l j, pa := key l j, size := 4, data := data l j, chk := chk l j }))
       ∧ (Free i s → (∀ x, s.me.tx.st ≠ .opened x) → s.ringInUse = true → ∀ (bad : Mask) (why : Nat → NoAccess) (first : Nat → Nat) (m : Nat),
           m < 32 → bad.getLsbD m → (why m).service = true →
           (∀ l, l < 32 → bad.getLsbD l →
             piece m (first m) < piece l (first l) ∨ (piece m (first m) = piece l (first l) ∧ m ≤ l)) →
           (∀ l, l < 32 → bad.getLsbD l → s.active.getLsbD l ∧ first l ≤ s.d ∧ at'' l (first l) = .no (why l) ∧ (why l).cause ≠ 0
             ∧ ∀ j, j < first l → ∃ key chk, at'' l j = .ok key chk) →
           (∀ l, l < 32 → s.active.getLsbD l → at' l % 4 = 0
             ∧ (bad.getLsbD l = false → ∀ j, j ≤ s.d → ∃ key chk, at'' l j = .ok key chk)) →
           Parks i s s.active bad (why m).cause (piece m (first m)) need.wr)
     runs (.ldt d a k la) Need.load (fun _ _ => 0) ∧ runs (.stt d a k la) Need.store (fun l j => (s.rdVP d j l).toNat))
  ∧
  (∀ (s : State) (d a k la : Nat),
     let runs := fun (i : Instr) (need : Need) (va data : Nat) (lanes : Mask) =>
       let at'' := s.resolve s.myGridKey s.me.ctx (s.me.handler.map (·.frame)) need va 4
       (Free i s → va % 4 ≠ 0 → exec i s = .next (s.trapAt i { cause := 8, sub := 0, addr := va, race := [], lanes := lanes }))
       ∧ (Free i s → (∀ x, s.me.tx.st ≠ .opened x) → va % 4 = 0 → ∀ (key : Nat) (chk : Bool), at'' = .ok key chk →
           Opens i s s.fr.exec []
             [{ lane := firstLane s.fr.exec, part := 0, va := va, pa := key, size := 4, data := data, chk := chk }])
       ∧ (Free i s → (∀ x, s.me.tx.st ≠ .opened x) → va % 4 = 0 → s.ringInUse = true → ∀ why, at'' = .no why → why.cause ≠ 0 →
           why.service = true → Parks i s s.fr.exec s.fr.exec why.cause va need.wr)
     let near := (s.rdS64 k + BitVec.ofNat 64 (4 * a)).toNat
     runs (.sld d a k la) Need.load near 0 s.fr.exec ∧ runs (.sst d a k la) Need.store near (s.rdSd d).toNat s.fr.exec
     ∧ (s.active ≠ 0 → runs (.marm a k la) Need.load (s.laneAddr a k (firstLane s.active)) 0 s.active)
     ∧ (Free (.marm a k la) s → s.active = 0 → ∃ u : State, exec (.marm a k la) s = .next u.settleArrival ∧ FragKept s u
       ∧ u.me.watch = none ∧ u.memory = s.memory ∧ u.me.vregs = s.me.vregs ∧ u.me.sregs = s.me.sregs ∧ u.me.preds = s.me.preds
       ∧ (u.ops.map fun (o : Op) => { o with nums := [] }) = (s.ops.map fun (o : Op) => { o with nums := [] })
       ∧ ∀ o ∈ u.ops, o.gs = s.me.gs → (∃ a' k' la', o.cap.instr = .marm a' k' la') → o.nums ≠ []))
  ∧
  (∀ (s : State) (a k la : Nat),
     let i : Instr := .prf a k la
     let asks := s.prefetch a k (lanesOf s.active)
     ((∃ x, s.me.tx.st = .opened x) → Free i s → Completes i s id fun _ => True)
     ∧ (Free i s → (∀ x, s.me.tx.st ≠ .opened x) → asks.2 = true → exec i s = .next asks.1)
     ∧ (Free i s → (∀ x, s.me.tx.st ≠ .opened x) → asks.2 = false → ∃ u : State, exec i s = .next u.settleArrival ∧ FragKept s u
       ∧ u.settleArrival = { s with
           me := u.settleArrival.me, fr := u.settleArrival.fr, groups := u.settleArrival.groups, ops := u.settleArrival.ops
           l1 := u.settleArrival.l1, fills := u.settleArrival.fills, charges := u.settleArrival.charges
           window := u.settleArrival.window }
       ∧ u.settleArrival.me.body = s.me.body)
     ∧ asks.1 = { s with l1 := asks.1.l1, fills := asks.1.fills, charges := asks.1.charges, window := asks.1.window })

/-! ## Fences, barriers and transactions -/

/-- R198 to R203, R335: FENCE issues once what it waits for has come about, ends the region for its release and for its acquire, and an
acquire at cluster scope or wider retires older L1 lines; until then it waits, and holds back the instructions of the group's other fragments.
XFENCE and WAITP issue once their paths allow; a waiting XFENCE holds back the instructions of its paths.
Where the spec is silent it holds by the model's own choice: log entries 10, 19, 21. -/
def Obligations.Fences : Prop :=
  ∀ (s : State) (rel acq scope m a f : Nat),
    let i : Instr := .fence rel acq scope
    (Free i s → rel < 2 → acq < 2 → (rel = 1 → s.released s.me.gs scope s.nextOp = true) →
      (acq = 1 → s.loadsPending s.me.gs = false) → Completes i s Group.noSync fun t =>
        t.me.race.rg = s.me.race.rg + rel + acq ∧ t.me.fencing = s.me.fencing.filter (fun f => f.1 != s.fr.id)
        ∧ (rel = 1 → t.me.race.release = s.me.race.rg + 1 ∧ t.me.race.releaseScope = scope)
        ∧ (rel = 0 → t.me.race.release = s.me.race.release)
        ∧ t.me.l1Mark = if acq = 1 ∧ 2 ≤ scope then s.fills else s.me.l1Mark)
    ∧ (let holds := fun (j : Instr) (m : Nat) (til : Option Nat) => exec j s = .next (s.modMe fun g =>
         { g with fencing := (s.fr.id, m, til) :: g.fencing.filter fun f => f.1 != s.fr.id })
       (Free i s → rel = 1 → s.released s.me.gs scope s.nextOp = false → holds i 255 (s.windowStart s.me.gs scope s.nextOp))
       ∧ (Free i s → rel = 0 → acq = 1 → s.loadsPending s.me.gs = true → holds i 255 none)
       ∧ (Free (.xfence m) s → s.pathsBusy s.me.gs m = true → holds (.xfence m) m none))
    -- and while it does, no instruction of another fragment of the group issues, or none of the paths that an XFENCE names
    ∧ (∀ j, ∀ e ∈ s.me.fencing, e.1 ≠ s.fr.id → isKernel j = true → s.live = true →
        (Nat.testBit e.2.1 7 = true → exec j s = .next s)
        ∧ (∀ q, (shape j).path = some q → Nat.testBit e.2.1 q.num = true → ¬ Free j s))
    ∧ (Free (.xfence m) s → s.pathsBusy s.me.gs m = false → Completes (.xfence m) s Group.noSync fun t =>
        t.me.race = s.me.race ∧ t.me.fencing = s.me.fencing.filter (fun f => f.1 != s.fr.id) ∧ t.me.l1Mark = (if m % 2 = 1 ∧ m ≠ 1 then s.fills else s.me.l1Mark)
        ∧ ∀ e ∈ s.me.pathSent, Nat.testBit m e.1 = true → s.now < (e.2 / 2048 + 2) * 2048 → ∃ x, t.me.lastSent 0 = some x ∧ e.2 ≤ x)
    ∧ ∀ p, Path.all[f]? = some p →
      (Free (.waitp a f) s → s.pathCount s.me.gs p ≤ (s.rdS a).toNat → Completes (.waitp a f) s id fun _ => True)
      ∧ (Free (.waitp a f) s → (s.rdS a).toNat < s.pathCount s.me.gs p → exec (.waitp a f) s = .next s)

/-- R205, R206: Arrive() and Wait() on a team barrier. BARA arrives and gives the phase it arrived in; BARW goes on once the phase has passed;
BAR arrives, keeps its token, and goes on once the phase has passed. A count that differs from EXPECT traps ILLEGAL with subcode 3.
Where the spec is silent it holds by the model's own choice: log entries 10, 21. -/
def Obligations.TeamBarriers : Prop :=
  ∀ (s : State) (d a b : Nat) (tm : Team), s.myTeam = some tm →
    let bar := tm.barrier a
    let n := (s.rdS b).toNat
    let due := s.released s.me.gs 1 s.nextOp = true ∧ s.me.gid ∉ bar.arrived
    let arrives := fun (t : State) => ∃ tm', t.myTeam = some tm' ∧ Arrives bar (tm'.barrier a) s.me.gid n (s.liveIds tm.serial)
      ∧ (∀ j, j ≠ a → tm'.barrier j = tm.barrier j) ∧ tm' = { tm with barriers := tm'.barriers, epoch := tm'.epoch }
    let kept := fun (t : State) => t.memory = s.memory ∧ t.me.vregs = s.me.vregs ∧ t.me.preds = s.me.preds
    let wait : Trap := Trap.plain 4 3 s.fr.exec
    (Free (.bara d a b) s → due → bar.arrived = [] ∨ n = bar.expect → ∃ u : State, exec (.bara d a b) s = .next u.settleArrival
        ∧ FragKept s u ∧ arrives u.settleArrival ∧ kept u ∧ ScalarIs s u d (BitVec.ofNat 32 bar.phase) ∧ u.me.race.rg = s.me.race.rg + 1)
    ∧ (Free (.bara d a b) s → due → bar.arrived ≠ [] → n ≠ bar.expect → exec (.bara d a b) s = .next (s.trapAt (.bara d a b) wait))
    ∧ (let token := (s.rdS b).toNat % 2 ^ 16
       let i : Instr := .barw a b
       (Free i s → bar.phase ≠ token → s.loadsPending s.me.gs = false →
         Completes i s Group.noSync fun t => t.me.race.rg = s.me.race.rg + 1)
       ∧ (Free i s → bar.phase = token → exec i s = .next s))
    ∧ (Free (.bar a b) s → due → s.fr.token = none → bar.arrived = [] ∨ n = bar.expect →
        ∃ t : State, exec (.bar a b) s = .next t ∧ arrives t ∧ kept t ∧ t.me.sregs = s.me.sregs
          ∧ (∀ tm', t.myTeam = some tm' → (tm'.barrier a).phase = bar.phase →
              t.fr = { s.fr with token := some bar.phase }))
    ∧ (∀ token, Free (.bar a b) s → s.fr.token = some token → bar.phase ≠ token →
        ∃ u : State, exec (.bar a b) s = .next u.settleArrival ∧ Frame Group.noSync s u.settleArrival
          ∧ u.fr = { s.fr with token := none, pc := s.nextPc, last := u.fr.last, wins := u.fr.wins, inject := u.fr.inject })
    ∧ (Free (.bar a b) s → s.fr.token = some bar.phase → exec (.bar a b) s = .next s)

/-- R208: CBAR arrives on the cluster barrier, keeps its token, and goes on once the phase has passed.
Where the spec is silent it holds by the model's own choice: log entries 10, 21. -/
def Obligations.ClusterBarrier : Prop :=
  ∀ (s : State) (tm : Team) (key id : Nat), s.clusterPlace = some (tm, key, id) → Free .cbar s →
    let bar := s.clusterBarrier
    (s.fr.token = none → s.released s.me.gs 2 s.nextOp = true → id ∉ bar.arrived → ∃ t : State, exec .cbar s = .next t
        ∧ Arrives bar t.clusterBarrier id 0 (s.clusterIds tm) ∧ t.memory = s.memory ∧ t.me.vregs = s.me.vregs
        ∧ (t.clusterBarrier.phase = bar.phase → t.fr = { s.fr with token := some bar.phase }))
    ∧ (∀ token, s.fr.token = some token → bar.phase ≠ token → ∃ u : State, exec .cbar s = .next u.settleArrival
        ∧ Frame Group.noSync s u.settleArrival
        ∧ u.fr = { s.fr with token := none, pc := s.nextPc, last := u.fr.last, wins := u.fr.wins, inject := u.fr.inject })
    ∧ (s.fr.token = some bar.phase → exec .cbar s = .next s)

/-- R210, R212, R214: LDCB stores a completion barrier's first phase, whose count is EXPECT; CBWAIT goes on once the phase has passed; MWAIT
goes on where the watched word differs, or once it has been woken, and otherwise watches it. R464: a poisoned word traps ECC.
Where the spec is silent it holds by the model's own choice: log entries 21, 22. -/
def Obligations.CompletionAndWatch : Prop :=
  ∀ (s : State) (a b : Nat),
    let key := s.teamKey (s.rdS a).toNat
    (let i : Instr := .ldcb a b
     let x : Access := { lane := 0, part := 0, va := key - sramBase + sramVa, pa := key, size := 8, data := (s.rdS b).toNat * 2 ^ 32, chk := true }
     Free i s → s.fr.watching = none → s.heldBack s.me.gs s.nextOp = false → s.laterThan [x] = false →
     (let t := s.stamp.abortConflicts s.me.gs true key 8
      (t.checkAccesses t.me (s.me.plainChecked true) [x]).1 = none) → (∀ g ∈ s.groups, g.tx.set = []) →
     ∃ u : State, exec i s = .next u.settleArrival ∧ FragKept s u ∧ u.rdNat key 8 = (s.rdS b).toNat * 2 ^ 32
       ∧ (∀ k, k < key ∨ key + 8 ≤ k → u.rdByte k = s.rdByte k)
       ∧ u.me.vregs = s.me.vregs ∧ u.me.sregs = s.me.sregs ∧ u.me.preds = s.me.preds)
    ∧ (let i : Instr := .cbwait a b
       let p := s.rdNat key 8 % 2 ^ 16
       (Free i s → s.poisoned key 8 = true →
         exec i s = .next (s.trapAt i { cause := 3, sub := 0, addr := key - sramBase + sramVa, race := [], lanes := s.fr.exec }))
       ∧ (Free i s → s.poisoned key 8 = false → p ≠ (s.rdS b).toNat % 2 ^ 16 → s.loadsPending s.me.gs = false →
         Completes i s Group.noSync fun t => t.me.race.rg = s.me.race.rg + 1 ∧ t.me.l1Mark = s.fills)
       ∧ (Free i s → s.poisoned key 8 = false → p = (s.rdS b).toNat % 2 ^ 16 → exec i s = .next s))
    ∧ (let i : Instr := .mwait a
       let goes := ∃ u : State, exec i s = .next u.settleArrival ∧ Frame (fun g => { g with watch := none }) s u.settleArrival
         ∧ u.me.watch = none
         ∧ u.fr = { s.fr with watching := none, woken := false, pc := s.nextPc, last := u.fr.last, wins := u.fr.wins, inject := u.fr.inject }
       let clean := fun (w : Nat) => isBlock w = true ∨ s.poisoned w 4 = false
       (∀ va w, Free i s → s.fr.watching = none → s.me.watch = some (va, w) → isBlock w = false → s.poisoned w 4 = true →
         exec i s = .next (s.trapAt i { cause := 3, sub := 0, addr := va, race := [], lanes := s.fr.exec }))
       ∧ (∀ va w, Free i s → s.fr.watching = none → s.me.watch = some (va, w) → clean w → s.watched w ≠ (s.rdS a).toNat → goes)
       ∧ (∀ va w, Free i s → s.fr.watching = none → s.me.watch = some (va, w) → clean w → s.watched w = (s.rdS a).toNat →
         exec i s = .next { s with fr := { s.fr with watching := some (s.rdS a).toNat, woken := false } })
       ∧ (∀ c, Free i s → s.fr.watching = some c → s.fr.woken = true → goes)
       ∧ (∀ c, Free i s → s.fr.watching = some c → s.fr.woken = false → exec i s = .next s))

/-- R216, R218: TXB opens a transaction that keeps MR and EXEC, or, in a group of several fragments, aborts at once with code 3; TXA falls through
while it is open and takes its target after an abort, which ends it; TXC makes the held stores visible together, and ends it.
Where the spec is silent it holds by the model's own choice: log entry 20. -/
def Obligations.Transactions : Prop :=
  ∀ (s : State) (d tgt : Nat),
    let begun := fun (st : TxState) (t : State) => t.me.tx =
      { st := st, mr := s.fr.mr, exec := s.fr.exec, sd := d, set := [], stores := [], firstOp := s.nextOp }
    let kept := fun (g : Group) => { g with sregs := [], tx := Tx.idle }
    (Free (.txb d) s → (∀ f ∈ s.me.frags, f.st = .gone) → Completes (.txb d) s kept fun t =>
        begun (.opened s.pc) t ∧ ScalarIs s t d 0)
    ∧ (∀ f ∈ s.me.frags, Free (.txb d) s → f.st ≠ .gone → Completes (.txb d) s kept fun t =>
        begun (.aborted s.pc) t ∧ ScalarIs s t d 3)
    ∧ (∀ x, Free (.txa tgt) s → s.me.tx.st = .opened x → Completes (.txa tgt) s id fun _ => True)
    ∧ (∀ x, Free (.txa tgt) s → s.me.tx.st = .aborted x → ∃ u : State, exec (.txa tgt) s = .next u.settleArrival
        ∧ u.fr = { s.fr with pc := s.pc + 4 * (BitVec.ofNat 10 tgt).signExtend 64, last := u.fr.last, wins := u.fr.wins
                             inject := u.fr.inject }
        ∧ Frame (fun g => { g with tx := Tx.idle }) s u.settleArrival ∧ u.me.tx = Tx.idle)
    ∧ (∀ x, Free .txc s → s.me.tx.st = .opened x →
        (∀ o ∈ s.ops, o.gs = s.me.gs → s.me.tx.firstOp ≤ o.id → o.complete = true) → s.released s.me.gs 3 s.nextOp = true →
        (s.acceptMem s.me.gs (s.me.tx.stores.map (·.1))).isSome = true →
        ∃ u : State, exec .txc s = .next u.settleArrival ∧ u.me.tx = Tx.idle ∧ u.fr.pc = s.nextPc ∧ u.fr.exec = s.fr.exec
          ∧ u.fr.mr = s.fr.mr ∧ u.me.vregs = s.me.vregs ∧ u.me.sregs = s.me.sregs ∧ u.me.preds = s.me.preds
          ∧ (∀ k, (∀ kb ∈ s.me.tx.stores, kb.1 ≠ k) → u.rdByte k = s.rdByte k)
          ∧ ((s.me.tx.stores.map (·.1)).Nodup → ∀ kb ∈ s.me.tx.stores, u.rdByte kb.1 = kb.2))

/-! ## Engine instructions at issue -/

/-- R221, R222: an engine instruction whose lanes are its work, with no active lane, goes on to the next word and leaves nothing behind. -/
def Obligations.NoActiveLane : Prop :=
  ∀ (s : State) (d h a la : Nat),
    let skips := fun (i : Instr) => Free i s → s.active = 0 → Completes i s id fun _ => True
    skips (.skidg d h a la) ∧ skips (.kmma d h a la) ∧ skips (.kmmaPair d h a la) ∧ skips (.cruz d h a la) ∧ skips (.crget d a la)
    ∧ skips (.cnop d a la) ∧ skips (.cnad d a la) ∧ skips (.cnrd d a la) ∧ skips (.cncl d a la) ∧ skips (.cnaj d h a la)
    ∧ skips (.ralc d h a la) ∧ skips (.rcmt h a la) ∧ skips (.rget d h la) ∧ skips (.prim h a la) ∧ skips (.tex d h a la)

/-- R221, R235, R236, R239 to R244, R250, R253: KZERO, KSTAT, the Canopy's instructions, RALC and PRIM issue one operation, which holds what it
works on; a Canopy lane's slot and log area must be aligned and reached.
Where the spec is silent it holds by the model's own choice: log entry 25. -/
def Obligations.EngineOperations : Prop :=
  ∀ (s : State) (d h a n la : Nat),
    let lanes := lanesOf s.active
    (∀ tm, s.myTeam = some tm → (Free (.kzero n la) s → Opens (.kzero n la) s s.active [tm.tileAt n] [])
      ∧ (Free (.kstat d n la) s → Opens (.kstat d n la) s s.active [tm.tileAt n, d] []))
    ∧ (let slot := fun (l : Nat) => (s.rdV a l).toNat
       let steps : List Access := lanes.map fun l =>
         { lane := l, part := 0, va := sramVa + slot l, pa := sramKey (slot l), size := 256, data := 0, chk := true }
       let opens := fun (i : Instr) (ctl : Nat) => Free i s → s.active ≠ 0 →
         (∀ l, l < 32 → s.active.getLsbD l → slot l % 256 = 0 ∧ s.offsetBad s.myGridKey (slot l) 256 = none) →
         Opens i s s.active [ctl] steps
       let logs := fun (l : Nat) => (s.rdV (a + 1) l).toNat
       ((∀ l, l < 32 → s.active.getLsbD l → logs l % 16 = 0
           ∧ s.offsetBad s.myGridKey (logs l) (48 * ((s.rdSd d).toNat / 32 % 65536)) = none) →
         opens (.cnop d a la) (s.rdSd d).toNat)
       ∧ opens (.cnad d a la) 0 ∧ opens (.cnrd d a la) 0 ∧ opens (.cncl d a la) (s.rdSd d).toNat
       ∧ opens (.cnaj d h a la) ((s.handle h).base + (s.handle h).word % 2))
    ∧ (Free (.ralc d h a la) s → s.active ≠ 0 → Opens (.ralc d h a la) s s.active ((s.handle h).base :: lanes) [])
    ∧ (let hd := s.handle h
       let todo : List Access := lanes.flatMap fun l =>
         ((s.triangle a l).samples (hd.word % 65536) (hd.word / 65536)).map fun e =>
           { lane := l, part := 0, va := (hd.base + 16 * e.1) % 2 ^ 64, pa := 0, size := 16, data := e.2 + (s.triangle a l).id * 2 ^ 32
             chk := false }
       Free (.prim h a la) s → todo ≠ [] → Opens (.prim h a la) s s.active [] todo)

/-- R224, R227, R228, R231, R233, R237, R238, R256: an engine instruction that passes the race check of every range it will touch issues one
operation: copies hold their records, a K-step its operands and the registers of its quad, a drain its control word and rows, and a
texture sample the texels of its lanes.
Where the spec is silent it holds by the model's own choice: log entries 20, 24, 25, 26, 28. -/
def Obligations.CheckedOperations : Prop :=
  ∀ (s c : State) (later : List (Nat × Bool)) (d h a la : Nat),
    let hd := s.handle h
    let lanes := lanesOf s.active
    let n := (s.rdSd d).toNat
    let off := (s.rdSd (d + 1)).toNat
    let bar := if off = 0xFFFFFFFF then 0 else s.teamKey off
    (Free (.skid d h la) s → s.stamp.checkSpans .sk s.active [⟨0, hd.base, n, false⟩, ⟨0, hd.dst, n, true⟩] = .ok (c, later) →
      OpensAfter (.skid d h la) s c later s.active [bar, s.me.race.rg, hd.base, hd.dst, n] [] [])
    ∧ (let src := fun (l : Nat) => (hd.base + (s.rdV64 a l).toNat) % 2 ^ 64
       let dst := fun (l : Nat) => (hd.dst + s.recordNumber l * n) % 2 ^ 64
       Free (.skidg d h a la) s → s.active ≠ 0 →
       (∀ l, l < 32 → s.active.getLsbD l → src l % 4 = 0 ∧ s.laneFault Need.load ⟨l, src l, n, false⟩ = none) →
       s.stamp.advance.checkSpans .sk s.active (lanes.flatMap fun l => [⟨l, src l, n, false⟩, ⟨l, dst l, n, true⟩]) = .ok (c, later) →
       OpensAfter (.skidg d h a la) s c later s.active ([bar, s.me.race.rg] ++ lanes.flatMap fun l => [src l, dst l, n]) [] [])
    ∧ (∀ tm, s.myTeam = some tm →
       let desc := (s.rdSd64 d).toNat
       let step := fun (i : Instr) (pair : Bool) =>
         let k := s.stepOf tm pair d h a
         Free i s → Numbered s → s.active ≠ 0 → scalePast tm.tbytes (desc / 2 ^ 16 % 2 ^ 24) (scaleEndA k.fa k.nb) = false →
         scalePast tm.tbytes (desc / 2 ^ 40 % 2 ^ 24) (scaleEndB k.fb) = false → s.rowPast (k.spans s.active) = none →
         s.stamp.checkSpans .kf s.active (k.spans s.active) = .ok (c, later) →
         OpensAfter i s c later s.active k.nums [] (s.quadHolds tm d a)
       step (.kmma d h a la) false ∧ step (.kmmaPair d h a la) true
       ∧ (let x : Drain :=
            { tile := tm.tileAt (n % 16), ctl := n, alpha := off, seed := (s.rdSd64 (d + 2)).toNat, limit := (s.rdSd (d + 4)).toNat
              status := d + 5, res := (s.rdSd64 (d + 6)).toNat, base := hd.base, stride := hd.word, reg := a, row := 0 }
          Free (.kdrn d h a la) s → s.stamp.checkSpans .kf s.active (x.spans s.d s.active) = .ok (c, later) →
          OpensAfter (.kdrn d h a la) s c later s.active x.nums [] []))
    ∧ (let t := Texture.of hd.base hd.word
       let reads := fun (l : Nat) => t.reads (s.rdV a l).toNat (s.rdV (a + 1) l).toNat (s.rdV (a + 2) l).toNat
       Free (.tex d h a la) s → s.active ≠ 0 →
       (∀ l, l < 32 → s.active.getLsbD l → ∀ va ∈ reads l, s.laneFault Need.load ⟨l, va, t.texel, false⟩ = none) →
       s.stamp.advance.checkSpans .tx s.active (lanes.flatMap fun l => (reads l).map fun va => ⟨l, va, t.texel, false⟩) = .ok (c, later) →
       ∃ todo : List Access, (todo.map fun x => (x.lane, x.va, x.size)) = (lanes.flatMap fun l => (reads l).map fun va => (l, va, t.texel))
         ∧ OpensAfter (.tex d h a la) s c later s.active [hd.base, hd.word] todo [])

/-- R245, R246, R248, R363, R403: where the budget admits what they access, CRGET gives each active lane what its record's status says; CRLD binds the program in the grid's table; CRUZ launches
or resumes the rays of the lanes whose record is free for it, and gives the others code 4.
Where the spec is silent it holds by the model's own choice: log entry 30. -/
def Obligations.CruiserInstructions : Prop :=
  ∀ (s : State) (d h a la : Nat),
    let va := fun (l : Nat) => (s.rdV64 a l).toNat
    let lanes := lanesOf s.active
    (Free (.crget d a la) s → s.active ≠ 0 →
      (∀ l, l < 32 → s.active.getLsbD l → va l % 64 = 0 ∧ s.recordFault l (va l) false = none) →
      (s.acceptMem s.me.gs (s.reachedKeys (lanes.map fun l => (va l, 192)))).isSome = true →
      Writes (.crget d a la) s fun t =>
        (∀ l, l < 32 → s.active.getLsbD l →
          let bs := s.recordBytes (va l)
          let st := recStatus bs
          let hit := fun (i k : Nat) => if k = 0 then BitVec.ofNat 32 (fieldAt bs (0x7C + 4 * i) 4) else 0
          ∀ k, k ≤ s.d →
            (∀ i, i < 5 → t.me.vword (d + i) k l = if st = 2 ∨ st = 4 then hit i k else s.me.vword (d + i) k l)
            ∧ t.me.vword (d + 5) k l = if k ≠ 0 then 0 else
                BitVec.ofNat 32 (if st = 2 then recCode bs else if st = 4 then 2 else if st = 1 ∨ st = 3 then 6 else 4))
        ∧ ∀ r k l, k ≤ s.d → l < 32 → (r < d ∨ d + 6 ≤ r ∨ ¬ s.active.getLsbD l) → t.me.vword r k l = s.me.vword r k l)
    ∧ (let at' := s.packetField 0x58 8 + 16 * (s.rdSd d).toNat
       let entry := leBytes 8 (s.handle h).base ++ leBytes 4 ((s.handle h).word % 4096 + 2 ^ 31) ++ leBytes 4 0
       ∀ ks e, Free (.crld d h la) s → Numbered s → s.fr.watching = none → s.engineRead s.myGridKey s.me.ctx at' 16 = .ok e →
         fieldAt e 8 4 / 2 ^ 31 ≠ 1 → s.keys s.myGridKey s.me.ctx Need.store at' 16 = .ok ks → ks.Nodup →
         (s.acceptMem s.me.gs (s.reachedKeys [(at', 16)])).isSome = true →
         ∃ u : State, exec (.crld d h la) s = .next u.settleArrival ∧ FragKept s u
           ∧ (∀ j, j < 16 → (ks[j]?.map u.rdByte) = entry[j]?) ∧ (∀ k, k ∉ ks → u.rdByte k = s.rdByte k)
           ∧ u.me.vregs = s.me.vregs ∧ u.me.sregs = s.me.sregs ∧ u.me.preds = s.me.preds)
    ∧ (∀ desc, Free (.cruz d h a la) s → s.active ≠ 0 → s.fr.watching = none →
       (∀ l, l < 32 → s.active.getLsbD l → va l % 64 = 0 ∧ s.recordFault l (va l) true = none) →
       s.engineRead s.myGridKey s.me.ctx (s.handle h).base 64 = .ok desc →
       let go := launchLanes (fun l => recStatus (s.recordBytes (va l))) va [] lanes
       go.length ≤ s.raySlots (coreOf s.me.gs) (s.budgetOf s.me.gs) →
       (s.acceptMem s.me.gs (s.reachedKeys ((lanes.map fun l => (va l, 192)) ++ if go = [] then [] else [((s.handle h).base, 64)]))).isSome = true →
       ∃ u : State, exec (.cruz d h a la) s = .next u.settleArrival ∧ FragKept s u
         ∧ u.me.rays = s.me.rays ++ go.map (fun l => { lane := l, op := s.nextOp, record := va l, dest := d })
         ∧ (∀ r k l, k ≤ s.d → l < 32 → u.me.vword r k l =
             if r = d + 5 ∧ s.active.getLsbD l ∧ l ∉ go then (if k = 0 then 4 else 0) else s.me.vword r k l)
         ∧ u.me.sregs = s.me.sregs ∧ u.me.preds = s.me.preds)

/-- R251, R252, R398: RCMT completes once its release has: where each lane names an allocated record of the landing, each once, or the null address, and
the records translate. It commits them to the landing's pending list. An address that names none traps ILLEGAL with subcode 4. RGET completes in
every team launched for a batch of the handle's landing, and gives each active lane its record of the batch, or the null address, and the batch's
count; in any other team it traps ILLEGAL. Either trap stands after the use of the landing, whose descriptor is held from then on. R222: with no active lane both complete at once, without effect.
Where the spec is silent it holds by the model's own choice: log entries 25, 33. -/
def Obligations.LandingInstructions : Prop :=
  ∀ (s : State) (d h a la : Nat) (l : Landing),
    let base := (s.handle h).base
    let addrs := (lanesOf s.active).map fun i => (s.rdV64 a i).toNat
    (Free (.rcmt h a la) s → s.active = 0 → Completes (.rcmt h a la) s id fun _ => True)
    ∧ (Free (.rget d h la) s → s.active = 0 → Completes (.rget d h la) s id fun _ => True)
    -- the landing's first use is an RCMT
    ∧ (∀ desc, Free (.rcmt h a la) s → Numbered s → s.active ≠ 0 → s.released s.me.gs 4 s.nextOp = true →
      s.landing? s.me.ctx base = none → s.engineRead s.myGridKey s.me.ctx base 64 = .ok desc → descriptorBreaks desc = false →
      (s.acceptMem s.me.gs ((s.keys s.myGridKey s.me.ctx Need.load base 64).toOption.getD [])).isSome = true →
      ((∀ x ∈ addrs, x = 0) → ∃ u : State, exec (.rcmt h a la) s = .next u.settleArrival ∧ FragKept s u ∧ u.memory = s.memory
        ∧ u.me.vregs = s.me.vregs ∧ u.me.race.rg = s.me.race.rg + 1 ∧ (u.landing? s.me.ctx base).isSome = true)
      ∧ ((∃ x ∈ addrs, x ≠ 0) → ∃ u : State, exec (.rcmt h a la) s = .next ((u.trapAt? (.rcmt h a la) (Trap.plain 4 4 s.active)).getD s)
        ∧ u.memory = s.memory ∧ u.me.vregs = s.me.vregs ∧ (u.landing? s.me.ctx base).isSome = true))
    ∧ (s.landing? s.me.ctx base = some l →
      (Free (.rcmt h a la) s → Numbered s → s.active ≠ 0 → s.released s.me.gs 4 s.nextOp = true →
        (l.named [] addrs).isSome = true → s.recordsLost base a = [] →
        ∃ u : State, exec (.rcmt h a la) s = .next u.settleArrival ∧ FragKept s u ∧ u.memory = s.memory ∧ u.me.vregs = s.me.vregs
          ∧ u.me.sregs = s.me.sregs ∧ u.me.preds = s.me.preds ∧ u.me.race.rg = s.me.race.rg + 1
          ∧ ∀ rs, l.named [] addrs = some rs → l.pend.length + rs.length < l.batch → ∃ l', u.landing? s.me.ctx base = some l'
            ∧ l'.pend.map (·.record) = l.pend.map (·.record) ++ rs
            ∧ l'.allocated = (l.allocated.filter fun r => !rs.contains r.1) ∧ l'.free = l.free)
      ∧ (Free (.rcmt h a la) s → s.active ≠ 0 → s.released s.me.gs 4 s.nextOp = true → l.named [] addrs = none →
        ∃ u : State, exec (.rcmt h a la) s = .next ((u.trapAt? (.rcmt h a la) (Trap.plain 4 4 s.active)).getD s)
          ∧ u.memory = s.memory ∧ u.me.vregs = s.me.vregs ∧ u.landings = s.landings
          ∧ ∀ g, u.grid? (s.placeOf s.me.gs).1 = some g → base ∈ g.landings)
      ∧ (∀ rs tm, Free (.rget d h la) s → s.active ≠ 0 → s.myTeam = some tm → tm.batch = some (base, rs) →
        ∃ u : State, exec (.rget d h la) s = .next u.settleArrival ∧ FragKept s u ∧ u.memory = s.memory ∧ u.me.sregs = s.me.sregs
          ∧ u.me.preds = s.me.preds ∧ u.landings = s.landings ∧ ∀ r k i, k ≤ s.d → i < 32 →
          let addr := if i < rs.length then l.address (rs.getD i 0) else 0
          u.me.vword r k i =
            if s.active.getLsbD i ∧ d ≤ r ∧ r < d + 3 then
              (if k ≠ 0 then 0 else BitVec.ofNat 32 ([addr % 2 ^ 32, addr / 2 ^ 32, rs.length].getD (r - d) 0))
            else s.me.vword r k i))
    ∧ (Free (.rget d h la) s → s.active ≠ 0 → (∀ tm rs, s.myTeam = some tm → tm.batch ≠ some (base, rs)) →
      ∃ u : State, exec (.rget d h la) s = .next ((u.trapAt? (.rget d h la) (Trap.plain 4 0 s.active)).getD s)
        ∧ u.memory = s.memory ∧ u.me.vregs = s.me.vregs
        ∧ ∀ x, s.landing? s.me.ctx base = some x → u.landings = s.landings ∧ ∀ g, u.grid? (s.placeOf s.me.gs).1 = some g → base ∈ g.landings)

/-- R249: SORTK whose set meets that of a waiting one of its team with another control word or bitmap traps ILLEGAL. SORTK of a group whose set has a group that has not issued its own leaves an operation that waits, and changes no register. The last
group of the set to issue orders the lanes of all of them by their keys, equal keys in the order of their places and lanes that took no part last:
the moved registers with their planes, p1 to p7 and TFLAGS go with the lanes, and EXEC of each group names the places that now hold lanes that were
active.
Where the spec is silent it holds by the model's own choice: log entry 29. -/
def Obligations.Sorting : Prop :=
  ∀ (s : State) (d h a la : Nat) (tm : Team), s.myTeam = some tm →
    let i : Instr := .sortk d h a la
    let c := (s.rdSd d).toNat
    let moved := (s.rdS64 (h + 2)).toNat * 2 ^ 64 + (s.rdS64 h).toNat
    let set := (List.range (c / 32 % 16)).map fun j => tm.slots.getD (c % 32 + j) 0
    -- a SORTK of the team that waits and whose set has a group in common with this one
    let waits := fun (o : Op) => o ∈ s.ops ∧ o.gs ∈ tm.slots ∧ o.complete = false ∧ (∃ d' h' a' la', o.cap.instr = .sortk d' h' a' la')
      ∧ sortsMeet c (o.nums.headD 0) = true
    (Free i s → (∃ o, waits o) → (∀ o, waits o → o.nums ≠ [c, moved]) → exec i s = .next (s.trapAt i (Trap.plain 4 0 s.fr.exec)))
    ∧ (Free i s → (∀ o, waits o → o.nums = [c, moved]) → (∃ g ∈ set, g ≠ s.me.gs ∧ s.sortOf g = none) →
      ∃ (u : State) (o : Op), exec i s = .next u.settleArrival ∧ FragKept s u ∧ u.ops = s.ops ++ [o] ∧ o.cap.instr = i
        ∧ o.complete = false ∧ u.me.sorting = some s.nextOp ∧ u.me.vregs = s.me.vregs ∧ u.me.preds = s.me.preds ∧ u.memory = s.memory)
    ∧ (Free i s → (∀ o, waits o → o.nums = [c, moved]) → set.Nodup → s.me.gs ∈ set → s.sortOf s.me.gs = none →
      (∀ g ∈ set, g ≠ s.me.gs → ∃ o, s.sortOf g = some o ∧ o.nums = [c, moved]) →
      let n := 32 * (c / 32 % 16)
      -- a place is numbered by its group in the set and its lane
      let groupOf := fun (p : Nat) => set.getD (p / 32) 0
      let old := fun (p : Nat) => (s.anyGroup? (groupOf p)).getD Group.empty
      let key := fun (p : Nat) =>
        if groupOf p = s.me.gs then
          if s.active.getLsbD (p % 32) then
            let w := (s.rdV a (p % 32)).toNat
            some (w / 2 ^ 24 * 2 ^ (c / 512 % 32) + w % 2 ^ (c / 512 % 32))
          else none
        else (s.sortOf (groupOf p)).bind fun o => (sortPlacesOf o)[p % 32]?.bind (·.key)
      ∃ (u : State) (src : Nat → Nat), exec i s = .next u.settleArrival ∧ u.memory = s.memory
        ∧ (∀ p, p < n → src p < n) ∧ (∀ p q, p < n → q < n → src p = src q → p = q)
        ∧ (∀ p q, p < q → q < n → keyBefore (key (src q)) (key (src p)) = false
            ∧ (keyBefore (key (src p)) (key (src q)) = false → src p < src q))
        ∧ ∀ gs ∈ set, ∀ g, s.anyGroup? gs = some g → ∃ g', u.anyGroup? gs = some g' ∧ g'.sregs = g.sregs
          ∧ (∀ p, p < n → groupOf p = gs →
            (∀ r k, k ≤ g.tangents → g'.vword r k (p % 32) =
              if r < 112 ∧ Nat.testBit moved r then (old (src p)).vword r k (src p % 32) else g.vword r k (p % 32))
            ∧ (∀ j, 1 ≤ j → j < 8 → (g'.pred j).getLsbD (p % 32) = ((old (src p)).pred j).getLsbD (src p % 32))
            ∧ g'.flags (p % 32) = s.flagsOf (old (src p)) (src p % 32)
            ∧ ∀ f ∈ g'.frags, f.st = .running → f.exec.getLsbD (p % 32) = (key (src p)).isSome))

/-! ## Micro-operations -/

/-- R259, R260, R275, R280 to R284: the jumps, flags and the counter of a ray's program, and the words that end it.
Where the spec is silent it holds by the model's own choice: log entries 31, 32. -/
def Obligations.MicroControl : Prop :=
  ∀ (s : State) (c tgt imm : Nat), RayFree s → s.ray.bytes.length = 192 → s.ray.past = false →
    let here := s.ray.mpc
    let bs := s.ray.bytes
    let goes := fun (i : Instr) (n : Nat) => wordOk i = true → MicroGoes i s s n [] fun r => r.buffersAs s.ray
    let node := recNode bs
    let holds := [!s.ray.kids.isEmpty, s.ray.cand.isSome, decide (recStkbase bs < recSpilld bs + recSdepth bs),
      Nat.testBit node 63 && !Nat.testBit node 62 && node / 2 ^ 32 % 256 != 0, fieldAt bs 0x27 1 != 0,
      Nat.testBit (fieldAt bs 0x2A 1) imm, Nat.testBit (fieldAt bs 0x28 4) 29, Nat.testBit (fieldAt bs 0x28 4) 30].getD c false
    let flag := fun (i : Instr) (v : Bool) => wordOk i = true → MicroGoes i s s (here + 1) [0x2A] fun r => r.buffersAs s.ray
      ∧ ∀ j, j < 8 → Nat.testBit (fieldAt r.bytes 0x2A 1) j = if j = imm then v else Nat.testBit (fieldAt bs 0x2A 1) j
    goes (.uJmp tgt) tgt
    ∧ goes (.uJz c tgt imm) (if holds then here + 1 else tgt) ∧ goes (.uJnz c tgt imm) (if holds then tgt else here + 1)
    ∧ goes (.uLeaf tgt imm) (if Nat.testBit node 63 && Nat.testBit node 62 then imm else if Nat.testBit node 63 then tgt else here + 1)
    ∧ flag (.uSetf imm) true ∧ flag (.uClrf imm) false
    ∧ (wordOk (.uCntr c imm) = true → MicroGoes (.uCntr c imm) s s (here + 1) [0x27] fun r => r.buffersAs s.ray
        ∧ fieldAt r.bytes 0x27 1 = [imm, fieldAt bs 0x27 1 - 1, min (fieldAt bs 0x27 1 + 1) 255].getD c 0)
    ∧ (wordOk (.uFaultx imm) = true → MicroLeaves (.uFaultx imm) s fun r =>
        recStatus r.bytes = 2 ∧ recCode r.bytes = 3 ∧ fieldAt r.bytes 0xAC 2 = 4 ∧ fieldAt r.bytes 0xAE 2 = imm)
    ∧ (∀ i, isMicro i = true → wordOk i = false → exec i s = .next (s.endRay 0x1001))
    ∧ exec (.evIllegalMicroword tgt) s = .next (s.endRay 0x1001)

/-- R272, R276, R277, R279, R281: ORDN orders the child list by t, stably; HITC commits the candidate, keeps the best hit before it, or brings the
kept one back; ANYH hands the ray back; XRET leaves the instance; MISS and DONE end the ray. -/
def Obligations.MicroHits : Prop :=
  ∀ s : State, RayFree s → s.ray.bytes.length = 192 → s.ray.past = false →
    let next := s.ray.mpc + 1
    let bs := s.ray.bytes
    let hv := fun (r : Ray) => Nat.testBit (fieldAt r.bytes 0x28 4) 30
    let hit := fun (r : Ray) (v : List Nat) => ∀ j, j < 5 → fieldAt r.bytes (0x7C + 4 * j) 4 = v.getD j 0
    let words := fun (off : Nat) => (List.range 5).map fun j => fieldAt bs (off + 4 * j) 4
    let span := fun (off n : Nat) => (List.range n).map (off + ·)
    MicroGoes .uOrdn s s next [] (fun r => r.kids.Perm s.ray.kids ∧ r.cand = s.ray.cand ∧ r.node = s.ray.node
      ∧ r.kids.Pairwise (fun x y => (f32.value y.1).below (f32.value x.1) = false)
      ∧ ∀ t, (r.kids.filter fun k => k.1 == t) = (s.ray.kids.filter fun k => k.1 == t))
    ∧ (s.ray.cand = none → MicroGoes (.uHitc 0) s s next [] (fun r => r.buffersAs s.ray)
        ∧ MicroGoes (.uHitc 1) s s next [] (fun r => r.buffersAs s.ray))
    ∧ (∀ v, s.ray.cand = some v → v.length = 5 → (∀ x ∈ v, x < 2 ^ 32) →
        MicroGoes (.uHitc 0) s s next (span 0x7C 20 ++ [0x2B]) (fun r => r.cand = none ∧ hv r = true ∧ hit r v)
        ∧ MicroGoes (.uHitc 1) s s next (span 0x7C 20 ++ span 0xAC 20 ++ [0x2B, 0x7B]) (fun r => r.cand = none ∧ hv r = true ∧ hit r v
            ∧ (∀ j, j < 5 → fieldAt r.bytes (0xAC + 4 * j) 4 = (words 0x7C).getD j 0)
            ∧ Nat.testBit (fieldAt r.bytes 0x28 4) 31 = true
            ∧ Nat.testBit (fieldAt r.bytes 0x78 4) 31 = Nat.testBit (fieldAt bs 0x28 4) 30))
    ∧ (Nat.testBit (fieldAt bs 0x28 4) 31 = false → exec (.uHitc 2) s = .next (s.endRay 0x1007))
    ∧ (Nat.testBit (fieldAt bs 0x28 4) 31 = true → MicroGoes (.uHitc 2) s s next (span 0x7C 20 ++ [0x2B]) (fun r =>
        r.cand = s.ray.cand ∧ hit r (words 0xAC) ∧ hv r = Nat.testBit (fieldAt bs 0x78 4) 31))
    ∧ MicroLeaves .uAnyh s (fun r => recStatus r.bytes = 4 ∧ r.mpc = next ∧ hit r (words 0x7C))
    ∧ (Nat.testBit (fieldAt bs 0x28 4) 29 = false → MicroGoes .uXret s s next [] (fun r => r.buffersAs s.ray))
    ∧ (Nat.testBit (fieldAt bs 0x28 4) 29 = true →
        MicroGoes .uXret s s next (span 0 12 ++ span 0x10 12 ++ [0x2B, 0x2E, 0x2F] ++ span 0x70 12) (fun r =>
          recOrigin r.bytes = vecAt bs 0x94 ∧ recDir r.bytes = vecAt bs 0xA0 ∧ Nat.testBit (fieldAt r.bytes 0x28 4) 29 = false
          ∧ recStkbase r.bytes = 0 ∧ recDepth r.bytes = min (recStkbase bs) (recDepth bs) ∧ r.kids = s.ray.kids ∧ r.cand = s.ray.cand))
    ∧ (let missed := fun (r : Ray) => recStatus r.bytes = 2 ∧ recCode r.bytes = 1
          ∧ hit r [recTmax bs, 0xFFFFFFFF, 0xFFFFFFFF, 0, 0] ∧ hv r = false
       MicroLeaves .uMiss s missed
       ∧ (hv s.ray = false → MicroLeaves .uDone s missed)
       ∧ (hv s.ray = true → MicroLeaves .uDone s fun r => recStatus r.bytes = 2 ∧ recCode r.bytes = 0 ∧ hit r (words 0x7C)))

/-- R264, R267 to R269, R273, R274, R278: what the micro-operations that read nodes, primitives and instances, and those that work on the stack, leave in
the ray, where their reads come to the state `c`; and what ends the ray.
Where the spec is silent it holds by the model's own choice: log entry 31. -/
def Obligations.MicroTraversal : Prop :=
  ∀ (s c : State), RayFree s → s.ray.bytes.length = 192 → s.ray.past = false →
    let next := s.ray.mpc + 1
    let bs := s.ray.bytes
    let node := recNode bs
    let x := s.ray.layout
    let span := fun (off n : Nat) => (List.range n).map (off + ·)
    let leaf := Nat.testBit node 63 && !Nat.testBit node 62
    (∀ b, Nat.testBit node 63 = false → s.rayRead s.ray node (Layout.nsize x) = .ok (c, b) →
      MicroGoes .uNload s c next [] (fun r => r.node = some (node, b) ∧ r.kids = s.ray.kids ∧ r.cand = s.ray.cand)
      ∧ ((∀ y, s.ray.node ≠ some (node, y)) →
          MicroGoes .uBoxn s c next [] (fun r => r.node = some (node, b) ∧ r.kids = s.ray.boxes b ∧ r.cand = s.ray.cand)))
    ∧ (∀ b, s.ray.node = some (node, b) → MicroGoes .uBoxn s s next [] (fun r =>
        r.node = s.ray.node ∧ r.kids = s.ray.boxes b ∧ r.cand = s.ray.cand))
    ∧ (Nat.testBit node 63 = true → exec .uNload s = .next (s.endRay 0x1004))
    ∧ (let n := min 4 (node / 2 ^ 32 % 256)
       let addrs := (List.range n).map fun j => Layout.primbase x + (node % 2 ^ 32 + j) % 2 ^ 32 * Layout.pstride x
       let tests := fun (i : Instr) (kinds : List Nat) (size : Nat) (test : List Byte → Option (Nat × Nat × Nat)) =>
         (leaf = true → kinds.contains (Layout.pkind x) = true → ∀ ps, RayReads s.ray size addrs s c ps →
           MicroGoes i s c next (if n = 0 then [] else span 0x30 8) fun r =>
             recNode r.bytes = (if n = 0 then node else if node / 2 ^ 32 % 256 = n then 2 ^ 63 else
               2 ^ 63 + (node / 2 ^ 32 % 256 - n) * 2 ^ 32 + (node % 2 ^ 32 + n) % 2 ^ 32)
             ∧ r.cand = ((ps.zip (List.range n)).foldl (fun (q : Ray) p => q.take ((node % 2 ^ 32 + p.2) % 2 ^ 32) (test p.1)) s.ray).cand
             ∧ r.kids = s.ray.kids ∧ r.node = s.ray.node)
         ∧ (leaf = false ∨ kinds.contains (Layout.pkind x) = false → exec i s = .next (s.endRay 0x1004))
       tests .uTrin [0] 36 (triangleHit (recOrigin bs) (recDir bs))
       ∧ tests .uSphn [1, 2] 16 (fun p => if Layout.pkind x = 1 then sphereHit (recOrigin bs) (recDir bs) (recTmin bs) p
           else splatHit (recOrigin bs) (recDir bs) p))
    ∧ (let stacked := span 0x30 64
       let canon := fun (ks : List (Nat × Nat × Nat)) => ∀ k ∈ ks, unpackRef (packRef k.2.2) = k.2.2 ∧ k.2.2 < 2 ^ 64
       let refs := fun (ks : List (Nat × Nat × Nat)) => (ks.map (·.2.2)).reverse
       s.rayWrite s.ray [] = .ok c →
       (canon s.ray.kids → recSdepth bs + s.ray.kids.length ≤ 8 → MicroGoes .uPushn s c next stacked fun r =>
         recStack r.bytes = recStack bs ++ refs s.ray.kids ∧ recNode r.bytes = node ∧ r.kids = [] ∧ r.cand = s.ray.cand)
       ∧ (∀ k ks, s.ray.kids = k :: ks → canon (k :: ks) → recSdepth bs + ks.length ≤ 8 → MicroGoes .uNextp s c next stacked fun r =>
         recStack r.bytes = recStack bs ++ refs ks ∧ recNode r.bytes = k.2.2 ∧ r.kids = [] ∧ r.cand = s.ray.cand))
    ∧ (let pops := fun (i : Instr) =>
         (recDepth bs ≤ recStkbase bs → MicroGoes i s s next (span 0x30 8) fun r => recNode r.bytes = 2 ^ 63 ∧ r.cand = s.ray.cand)
         ∧ (recStkbase bs < recDepth bs → recSdepth bs ≠ 0 → recSdepth bs ≤ 8 → MicroGoes i s s next (span 0x30 64) fun r =>
             some (recNode r.bytes) = (recStack bs).getLast? ∧ recSdepth r.bytes = recSdepth bs - 1 ∧ r.cand = s.ray.cand)
       pops .uPopn ∧ (s.ray.kids = [] → pops .uNextp))
    ∧ (let inst := Nat.testBit node 63 && Nat.testBit node 62
       let nested := Nat.testBit (fieldAt bs 0x28 4) 29
       (inst = false ∨ nested = true → exec .uXfrm s = .next (s.endRay 0x1006))
       -- the layout descriptor is read at the instance's entry
       ∧ ∀ c' y, inst = true → nested = false → s.rayRead s.ray s.ray.layoutVa 64 = .ok (c', y) →
         let base := Layout.instbase y
         (Layout.ok y = false → exec .uXfrm s = .next (s.endRay 0x1003))
         ∧ (Layout.ok y = true → base = 0 → exec .uXfrm s = .next (s.endRay 0x1006))
         ∧ ∀ b, Layout.ok y = true → base ≠ 0 → c'.rayRead { s.ray with layout := y } (base + 64 * (node % 2 ^ 32)) 64 = .ok (c, b) →
         fieldAt b 0x30 8 % 64 = 0 → fieldAt b 0x30 8 < 2 ^ 57 →
         MicroGoesAs .uXfrm s c y next (span 0 12 ++ span 0x10 12 ++ [0x2B] ++ span 0x30 8 ++ [0x78, 0x79, 0x7A] ++ span 0x90 28) fun r =>
           recNode r.bytes = fieldAt b 0x30 8 ∧ fieldAt r.bytes 0x90 4 = fieldAt b 0x38 4
           ∧ vecAt r.bytes 0x94 = recOrigin bs ∧ vecAt r.bytes 0xA0 = recDir bs ∧ Nat.testBit (fieldAt r.bytes 0x28 4) 29 = true
           ∧ recStkbase r.bytes = recDepth bs % 2 ^ 17 ∧ recDir r.bytes = (List.range 3).map (fun j => rowOf b j (recDir bs) % 2 ^ 32)
           ∧ r.invd = inverse ((List.range 3).map fun j => rowOf b j (recDir bs)) ∧ r.kids = s.ray.kids ∧ r.cand = s.ray.cand)

/-! ## Events -/

/-- R182, R184, R188, R194, R199, R321, R356, R421, R424: an access of an operation performs: a store's bytes, or an atomic's new value, stand and
no others change; a store that hits L1 lines may update these first, and one that a lane step shares goes word by word; a load changes no memory,
and what it reads from the SRAM space comes to its lane. A sector's data comes to its lane; a walk's page comes to stand first in a TLB of the
core that walked; the window of a release begins.
Where the spec is silent it holds by the model's own choice: log entries 9, 19, 44. -/
def Obligations.MemoryEvents : Prop :=
  ∀ (s : State) (op : Nat), Idle s →
    (∀ o x, s.op? op = some o → o.path = some .ls → s.mayPerform o = true → s.readyAccesses o = [x] → NoTx s →
      (o.begun = true ∨ ((s.acceptMem o.gs (o.todo.map (·.pa))).isSome = true
        ∧ (s.checkAccesses ((s.anyGroup? o.gs).getD Group.empty) o.checked o.todo).1 = none)) →
      s.accessFails o x = false →
      let i : Instr := .evMemoryAccessPerform op
      let holds := fun (t : State) (v : Nat) => t.rdNat x.pa x.size = v % 2 ^ (8 * x.size)
        ∧ ∀ k, k < x.pa ∨ x.pa + x.size ≤ k → t.rdByte k = s.rdByte k
      let waits := fun (t : State) (todo : List Access) => t.memory = s.memory ∧ ∃ o', t.op? op = some o' ∧ o'.todo = todo
      (writesMemory o.cap.instr = true → atomicKind o.cap.instr = none →
        (s.splits? o x = true → Happens i s fun t => waits t (o.todo.flatMap fun a => if a = x then x.split else [a]))
        ∧ (s.splits? o x = false → s.hitsL1 o x = false → Happens i s fun t => holds t x.data)
        ∧ (s.splits? o x = false → s.hitsL1 o x = true → Happens i s fun t =>
            holds t x.data ∨ waits t (o.todo.map fun a => if a = x then { x with early := true } else a)))
      -- the words of an 8-byte atomic that a lane step has left behind may be found as they stood before it (R356)
      ∧ (atomicKind o.cap.instr ≠ none → x.size ≤ 4 ∨ (∀ j, j < x.size → s.oldWords (x.pa + j) = []) → Happens i s fun t =>
          holds t (atomNew (o.nums.headD 0) (s.rdNat x.pa x.size) (x.data % 2 ^ 64) (x.data / 2 ^ 64)))
      ∧ (writesMemory o.cap.instr = false → Happens i s fun t => t.memory = s.memory)
      ∧ (∀ d a k la, o.cap.instr = .ldB32 d a k la → isSram x.pa = true → x.size = 4 → x.lane < 32 →
          (∀ j, j < 4 → s.oldWords (x.pa + j) = []) →
          Happens i s fun t => LaneGets s t o.gs d x.lane [s.rdNat x.pa 4]))
    ∧ (∀ o r d a k la, s.op? op = some o → o.cap.instr = .ldB32 d a k la → o.got = [r] → r.lane < 32 →
      Happens (.evLoadSectorReturn op r.sector) s fun t => LaneGets s t o.gs d r.lane [r.data] ∧ t.memory = s.memory
        ∧ (o.todo = [] → Over t op))
    ∧ (∀ ctx va, va < sramVa → ∃ core cache, core < 256 ∧ cache ∈ [core, 256 + core, 512 + core / 4] ∧ Happens (.evTranslationWalk ctx va) s fun t =>
        t = { s with tlb := t.tlb, walks := t.walks, tick := t.tick, unit := core }
        ∧ ∀ base size e, { s with unit := core }.walkNow ctx va = .page base size e → t.tlb.head? =
            some { cache := cache, ctx := ctx, va := va / size * size, size := size, base := base, flags := e % 4096 })
    ∧ (let moments := s.groups.flatMap fun g => g.fencing.filterMap (·.2.2)
       ∀ n, s.op? op = none → n ∈ moments → (∀ m ∈ moments, n ≤ m) →
        exec (.evReleaseWindow op) s = .next { s with now := max s.now (s.latest n) })

/-- R57, R73, R234 to R236, R370 to R373: a clock of a K-step's fetch brings the next rows and scales of a side into its buffer, and the fetch ends
with the last; each slot but the last only advances the step, and changes narrow sums alone of its tile; a promotion empties the narrow sums of a
tile whose count has come to P; a drain to registers writes its elements and its planes in its lanes, one to memory its rows, each then writes
the status word and clears the tile or its flags; KZERO clears its tile, and KSTAT reports the flags.
Where the spec is silent it holds by the model's own choice: log entries 1, 25, 26. -/
def Obligations.KerfEvents : Prop :=
  ∀ (s : State) (op : Nat) (o : Op), Idle s → NoTx s → s.op? op = some o →
    let k := KStep.of o.nums
    let tile := o.nums.headD 0
    let place := s.placeOf o.gs
    let once := fun (t : State) (p : Nat) => ∀ q, q ≠ p → t.tile q = s.tile q
    (∀ two ks got, (k.sides.filter fun y => s.mayFetch (o, y)) = [two] → s.draw.readParts place.1 place.2 (o.nextParts two) = .ok (ks, got) →
      (s.acceptFrom (s.budgetOf o.gs) (o.sideCore two) ks).isSome = true → o.later = [] → Happens (.evKerfFetch op) s fun t =>
        t.memory = s.memory ∧ t.tiles = s.tiles
        ∧ ∃ o', t.op? op = some o' ∧ o'.got = o.got ++ got ∧ o'.complete = o.complete
          ∧ KStep.of o'.nums = (k.takesBuffer two).setFetched two (({ o with got := o.got ++ got } : Op).unread two).isEmpty)
    ∧ (let b := s.budgetOf o.gs
       let c := s.kerfClassOf o.gs
       let clocks := if k.slot = 0 then classClocks (kerfClass (formatOf k.fa).1) else 0
       s.takesArray o = true → k.slot + 1 < k.slots → (s.accept b (chargeKerf c) (coreOf o.gs) (s.kerfLimit (coreOf o.gs) b c) clocks).isSome = true →
       Happens (.evKerfSlot op) s fun t => t.memory = s.memory ∧ (t.tile k.tile).acc = (s.tile k.tile).acc ∧ (t.tile k.tile).c = (s.tile k.tile).c
         ∧ (∀ q, q ≠ k.tile → (k.pair = true → q ≠ k.tile2) → t.tile q = s.tile q)
         ∧ ∃ o', t.op? op = some o' ∧ KStep.of o'.nums = { k with slot := k.slot + 1, promote := false } ∧ o'.holds = o.holds)
    ∧ (isStep o.cap.instr = true → o.complete = false → k.promote = true → Happens (.evKerfPromotion op) s fun t =>
        (k.p ≤ (s.tile k.tile).c → (t.tile k.tile).nar = [] ∧ (t.tile k.tile).c = 0) ∧ t.memory = s.memory ∧ Over t op)
    ∧ (∀ d h a la g, o.cap.instr = .kdrn d h a la → o.complete = false → o.suspended = none → s.tileFirst o = true → s.followerWaits o = false →
        s.group? o.gs = some g →
        let x := Drain.of o.nums
        let y := (s.tile x.tile).promote
        -- what every drain leaves: the tile, and in the status register OV, NV, SAT and TD
        let ends := fun (t : State) (g' : Group) (sat td : Bool) => once t x.tile ∧ Over t op
          ∧ t.tile x.tile = (if x.keep then { y with ov := false, nv := false, sat := false, td := false } else Tile.zero)
          ∧ t.group? o.gs = some g' ∧ (∀ j, j ≠ x.status → sget 0 g'.sregs j = sget 0 g.sregs j)
          ∧ sget 0 g'.sregs x.status = BitVec.ofNat 32 (flagNat y.ov + 2 * flagNat y.nv + 4 * flagNat (y.sat || sat) + 8 * flagNat (y.td || td))
        (x.toRegs = true →
          let b := if x.tr then x.nb * (1 + g.tangents) else x.nb
          let word := fun (k l j : Nat) => (x.words y g.tangents (32 * (b + k) + l)).getD j (0, false, false)
          let clamps := (lanesOf o.cap.act).any fun l => (List.range (if x.tr then g.tangents.val + 1 else 1)).any fun k =>
            (List.range (x.nreg * (if x.fmt = 0 then 1 else 2))).any fun j => (x.element y g.tangents (32 * (b + k) + l) (x.col + j) none).2
          Happens (.evKdrnDrain op) s fun t => t.memory = s.memory ∧ ∃ g', ends t g' clamps false
            ∧ (∀ l j, o.cap.act.getLsbD l = true → l < 32 → j < x.nreg → g'.vword (x.reg + j) 0 l = BitVec.ofNat 32 (word 0 l j).1
                ∧ ∀ p, p < g.tangents.val → g'.vword (x.reg + j) (p + 1) l =
                    BitVec.ofNat 32 (if x.tr then x.planeWord (word (p + 1) l j).1 (word 0 l j).2.1 (word 0 l j).2.2 else 0))
            ∧ ∀ r p l, p ≤ g.tangents → l < 32 → (r < x.reg ∨ x.reg + x.nreg ≤ r ∨ ¬ o.cap.act.getLsbD l) → g'.vword r p l = g.vword r p l)
        ∧ (x.toRegs = false → (s.budget (s.budgetOf o.gs)).memb = 0 → o.later = [] →
          let w := drainWidth x.fmt
          let n := 64 * w / 8
          let va := fun r => (x.base + r * x.stride) % 2 ^ 64
          let resVa := fun r => (x.res + r * x.stride) % 2 ^ 64
          let rows := (x.rows g.tangents o.cap.act).filter fun r => decide (x.row ≤ r)
          -- several rows are said of the SRAM space, where no row can change where the next one goes
          rows.length ≤ 1 ∨ (∀ r ∈ rows, sramVa ≤ va r ∧ (x.hasRes = true → sramVa ≤ resVa r)) →
          ∀ (into outof : Nat → List Nat) (res : Nat → List Byte),
          (∀ r ∈ rows, s.keys place.1 place.2 Need.store (va r) n = .ok (into r)) → (rows.flatMap into).Nodup →
          (x.hasRes = true → ∀ r ∈ rows, s.engineRead place.1 place.2 (resVa r) n = .ok (res r)
            ∧ s.keys place.1 place.2 Need.load (resVa r) n = .ok (outof r) ∧ ∀ q ∈ rows, q ≠ r → ∀ j ∈ outof r, j ∉ into q) →
          let element := fun (r j : Nat) => x.element y g.tangents r j (if x.hasRes then some (leNat (res r) / 2 ^ (w * j) % 2 ^ w) else none)
          Happens (.evKdrnDrain op) s fun t =>
            (∀ r ∈ rows, (into r).map t.rdByte = leBytes n ((List.range 64).map fun j => (element r j).1 * 2 ^ (w * j)).sum)
            ∧ (∀ j, j ∉ rows.flatMap into → t.rdByte j = s.rdByte j)
            ∧ ∃ g', ends t g' (rows.any fun r => (List.range 64).any fun j => (element r j).2) (x.tr && decide (3 ≤ x.fmt))
              ∧ g'.vregs = g.vregs))
    ∧ (∀ n la, o.cap.instr = .kzero n la → o.complete = false → s.tileFirst o = true → s.followerWaits o = false → Happens (.evKzeroClear op) s fun t =>
        t.tile tile = Tile.zero ∧ once t tile ∧ t.memory = s.memory ∧ Over t op)
    ∧ (∀ d n la g, o.cap.instr = .kstat d n la → o.complete = false → s.tileFirst o = true → s.group? o.gs = some g →
        Happens (.evKstatReport op) s fun t => t.tiles = s.tiles ∧ t.memory = s.memory ∧ Over t op
          ∧ ∃ g', t.group? o.gs = some g' ∧ (∀ j, j ≠ o.nums.getD 1 0 → sget 0 g'.sregs j = sget 0 g.sregs j)
              ∧ (let w := sget 0 g'.sregs (o.nums.getD 1 0)
                 let y := s.tile tile
                 w.getLsbD 0 = y.ov ∧ w.getLsbD 1 = y.nv ∧ w.getLsbD 2 = y.sat ∧ w.getLsbD 3 = y.td
                 ∧ w.toNat / 16 % 16 = y.c % 16 ∧ w.getLsbD 8 = s.pairHolds (coreOf o.gs)))

/-- R237, R239 to R244, R254, R256: a copy's piece copies its bytes, and arrives where the copy is done; a Canopy lane's CNOP opens its slot and its
CNRD reports it, CNAD commits, buffers or drops its sample, CNCL commits the buffer and the background and closes the slot, and CNAJ replays the log
into the gradient buffer; once its lanes have performed, a Canopy operation completes; a raster sample replaces an entry that it is nearer than; a texture lane receives its filtered sample.
Where the spec is silent it holds by the model's own choice: log entries 1, 20, 27, 28. -/
def Obligations.EngineEvents : Prop :=
  ∀ (s : State) (op : Nat) (o : Op), Idle s → NoTx s → s.op? op = some o → o.complete = false → o.suspended = none →
    let place := s.placeOf o.gs
    (∀ src dst n bs outof into, o.path = some .sk → s.copyWaits o = false → copyRecords (o.nums.drop 2) = [(src, dst, n)] →
      n ≤ (s.budget (s.budgetOf o.gs)).piece →
      ((s.acceptMem o.gs (outof ++ into)).bind fun t =>
        t.accept (s.budgetOf o.gs) chargeSkid (coreOf o.gs / 4) (t.budget (s.budgetOf o.gs)).skb.toNat n).isSome = true →
      s.engineRead place.1 place.2 src n = .ok bs → s.keys place.1 place.2 Need.load src n = .ok outof →
      s.keys place.1 place.2 Need.store dst n = .ok into → into.Nodup → o.later = [] →
      let bar := o.nums.headD 0
      (bar ≠ 0 → ∀ j, j < 8 → bar + j ∉ into) →
      Happens (.evSkidderCopy op) s fun t => Over t op ∧ (∀ j, j < n → (into[j]?.map t.rdByte) = bs[j]?)
        ∧ (∀ k, k ∉ into → (bar ≠ 0 → k < bar ∨ bar + 8 ≤ k) → t.rdByte k = s.rdByte k)
        ∧ (bar ≠ 0 → t.rdNat bar 8 = cbArrive (s.rdNat bar 8) % 2 ^ 64))
    ∧ (∀ x rest, o.todo = x :: rest → o.path = some .cn → (∃ key chk, s.sramReach place.1 (x.pa - sramBase) = .ok key chk) → x.lane < 32 →
      (∀ e ∈ s.ops, e.gs = o.gs → e.path = some .cn → e.id < o.id → ∀ y ∈ e.todo, y.pa ≠ x.pa) →
      (∀ d a la, o.cap.instr = .cnrd d a la → s.poisoned x.pa 256 = false → s.logWaits place.1 (s.rdBytes x.pa 256) = none →
        Happens (.evCanopyLaneStep op) s fun t => t.memory = s.memory ∧ ∀ g, s.group? o.gs = some g → ∃ g', t.group? o.gs = some g'
          ∧ (∀ j, j < 8 → g'.vword (d + j) 0 x.lane = BitVec.ofNat 32 (s.rdNat (x.pa + 4 * j) 4))
          ∧ ∀ r p l, p ≤ g.tangents → l < 32 → (r < d ∨ d + 9 ≤ r ∨ l ≠ x.lane ∨ p ≠ 0) → g'.vword r p l = g.vword r p l)
      ∧ (∀ d a la, o.cap.instr = .cnop d a la → Happens (.evCanopyLaneStep op) s fun t =>
          (∀ k, k < x.pa ∨ x.pa + 128 ≤ k → t.rdByte k = s.rdByte k)
          ∧ t.rdNat (x.pa + 0x0C) 4 = 0x3F800000 ∧ t.rdNat (x.pa + 0x20) 4 = o.operand (a + 1) x.lane
          ∧ t.rdNat (x.pa + 0x24) 4 = (o.nums.headD 0) / 32 % 65536 * 65536
          ∧ t.rdNat (x.pa + 0x28) 4 = if o.nums.headD 0 % 32 = 0 then 8 else o.nums.headD 0 % 32)
      ∧ (let i : Instr := .evCanopyLaneStep op
         let b : Slot := s.rdBytes x.pa 256
         let area := sramKey (b.word 0x20)
         s.poisoned x.pa 256 = false → s.logWaits place.1 b = none → (s.budget (s.budgetOf o.gs)).memb = 0 →
         -- the log area lies apart from the slot
         (area + 48 * fieldAt b 0x26 2 ≤ x.pa ∨ x.pa + 256 ≤ area) →
         let slot : State → Slot := fun t => t.rdBytes x.pa 256
         let like := fun (t : State) (y : Slot) (offs : List Nat) => ∀ off ∈ offs, (slot t).word off = y.word off
         (∀ d a la, o.cap.instr = .cnad d a la →
           let e := o.sample a x.lane
           let lands := fun (t : State) (n : Nat) (ls : List (List Byte)) => LogsAs s t place.1 x.pa ls
             ∧ (slot t).retiredBit = (slot t).spent ∧ ((slot t).spent = true → (slot t).nbuf = 0)
             ∧ LaneGetsPlain s t o.gs d x.lane (if (slot t).spent then n + 16 else n)
           (b.retired = true ∨ (f32.isNan e.depth = true ∧ b.spent = false) → Happens i s fun t =>
             LaneGetsPlain s t o.gs d x.lane 3 ∧ (slot t).word 0x1C = (b.word 0x1C + 1) % 2 ^ 32
             ∧ ∀ k, (k < x.pa + 0x1C ∨ x.pa + 0x20 ≤ k) → t.rdByte k = s.rdByte k)
           ∧ (b.retired = false → f32.isNan e.depth = true → b.spent = true → Happens i s fun t =>
               lands t 3 [] ∧ (slot t).word 0x1C = (b.word 0x1C + 1) % 2 ^ 32 ∧ like t b [0, 4, 8, 0x0C, 0x10, 0x14, 0x18, 0x20])
           ∧ (b.retired = false → f32.isNan e.depth = false →
             (lt32 e.depth (b.word 0x10) = true → Happens i s fun t => lands t 2 [commitLog b true e]
               ∧ like t (committed b true e) [0, 4, 8, 0x0C, 0x10, 0x14, 0x1C, 0x20] ∧ (slot t).word 0x18 = (b.word 0x18 + 1) % 2 ^ 32
               ∧ ((slot t).spent = false → (slot t).entries = b.entries))
             ∧ (lt32 e.depth (b.word 0x10) = false → b.nbuf < 8 → Happens i s fun t => lands t 0 []
               ∧ like t b [0, 4, 8, 0x0C, 0x10, 0x14, 0x18, 0x1C, 0x20]
               ∧ ((slot t).spent = false → (slot t).entries = insertSample b.entries e))
             ∧ (∀ n ns, lt32 e.depth (b.word 0x10) = false → b.nbuf = 8 → insertSample b.entries e = n :: ns → Happens i s fun t =>
               lands t 1 [commitLog b false n] ∧ like t ((committed b false n).put 0x10 n.depth) [0, 4, 8, 0x0C, 0x10, 0x14, 0x18, 0x1C, 0x20]
               ∧ ((slot t).spent = false → (slot t).entries = ns))))
         ∧ (∀ d a la, o.cap.instr = .cncl d a la →
           let y := if b.retired then (b, []) else commitAll b b.entries
           let bg := fun (j : Nat) => o.operand (a + 1 + j) x.lane
           let ground := decide (o.nums.headD 0 % 2 = 1)
           let last := if ground then [logEntry y.1 2 0xFFFFFF 0 0x7F800000 ((List.range 3).map bg)] else []
           Happens i s fun t => LogsAs s t place.1 x.pa (y.2 ++ last) ∧ (slot t).retiredBit = true
             ∧ like t y.1 [0x0C, 0x10, 0x14, 0x18, 0x1C, 0x20] ∧ (b.retired = false → (slot t).nbuf = 0)
             ∧ (∀ j, j < 3 → (slot t).word (4 * j) = if ground then fma32 (y.1.word 0x0C) (bg j) (y.1.word (4 * j)) % 2 ^ 32 else y.1.word (4 * j))
             ∧ ∀ g, s.group? o.gs = some g → ∃ g', t.group? o.gs = some g' ∧ g'.vregs = g.vregs)
         ∧ (∀ d h a la grads, o.cap.instr = .cnaj d h a la →
           let ctl := o.nums.headD 0
           let cnt := fieldAt b 0x24 2
           let acc := decide (ctl % 2 = 1)
           let r := s.replay place.1 (b.word 0x20) cnt { gc := (List.range 3).map fun j => o.operand (a + 1 + j) x.lane, gt := o.operand (a + 4) x.lane
                                                         out := [], count := 0, skipped := false }
           s.gradKeys place.1 place.2 (ctl - ctl % 2) acc r.out = .ok grads →
           (∀ n, n < cnt → (s.offsetBad place.1 (b.word 0x20 + 48 * n) 48).isNone = true → s.poisoned (sramKey (b.word 0x20 + 48 * n)) 48 = false) →
           (∀ g ∈ grads, ∀ j, j < 16 → s.stackWaits (g.1 + j) = false) →
           Happens i s fun t =>
             LaneGetsPlain s t o.gs d x.lane (r.count % 65536 + (if r.skipped then 2 ^ 30 else 0) + (if b.logx then 2 ^ 31 else 0))
             ∧ (∀ k, (∀ g ∈ grads, k < g.1 ∨ g.1 + 16 ≤ k) → t.rdByte k = s.rdByte k)
             -- the entries that share a place are stored, or added, one after another
             ∧ ∀ k, (∀ g ∈ grads, g.1 = k ∨ g.1 + 16 ≤ k ∨ k + 16 ≤ g.1) → ∀ j, j < 4 → t.rdNat (k + 4 * j) 4 =
                 (grads.filter fun g => g.1 == k).foldl (fun v g => (if acc then add32 v (g.2.2.getD j 0) else g.2.2.getD j 0) % 2 ^ 32)
                   (s.rdNat (k + 4 * j) 4))))
    ∧ (∀ (r : Replay) (e : List Byte),
      let w := fun (off : Nat) => fieldAt e off 4
      let kind := w 0 / 2 ^ 24 % 4
      let id := w 0 % 2 ^ 24
      let al := w 4
      let tr := w 8
      let u := sub32 oneF32 al
      let c := fun (j : Nat) => w (0x0C + 4 * j)
      let before := fun (j : Nat) => w (0x18 + 4 * j)
      let chain := fun (f : Nat → Nat) (v : Nat) => fma32 (r.gc.getD 2 0) (f 2) (fma32 (r.gc.getD 1 0) (f 1) (fma32 (r.gc.getD 0 0) (f 0) v))
      let gives := fun (g : Nat) (gs : List Nat) (gt : Nat) (gc : List Nat) =>
        r.step e = { r with out := r.out ++ [(id, g :: gs)], gt := gt, gc := gc, count := r.count + 1 }
      (kind = 0 → gives (chain (fun j => mul32 tr (c j)) (neg32 (mul32 r.gt tr))) (r.gc.map fun g => mul32 (mul32 g tr) al)
        (chain (fun j => mul32 al (c j)) (mul32 r.gt u)) r.gc)
      ∧ (kind = 1 → gives (chain (fun j => sub32 (c j) (before j)) (neg32 (mul32 r.gt tr))) (r.gc.map fun g => mul32 al g)
          (mul32 u r.gt) (r.gc.map fun g => mul32 u g))
      ∧ (kind = 2 → r.step e = { r with gt := chain c r.gt, count := r.count + 1 }) ∧ (kind = 3 → r.step e = r))
    ∧ (o.todo = [] → o.path = some .cn → Happens (.evCanopyLaneStep op) s fun t => t.memory = s.memory ∧ Over t op)
    ∧ (∀ x rest key chk, o.todo = x :: rest → o.path = some .ra → s.resolve place.1 place.2 none Need.both x.va 16 = .ok key chk →
      s.poisoned key 16 = false → (s.acceptMem o.gs [key]).isSome = true →
      let z := x.data % 2 ^ 32
      let id := x.data / 2 ^ 32
      Happens (.evRasterSampleUpdate op) s fun t =>
        (∀ k, k < key ∨ key + 12 ≤ k → t.rdByte k = s.rdByte k)
        ∧ (nearer z id (s.rdNat (key + 8) 4) (s.rdNat key 8) = true → t.rdNat key 8 = id % 2 ^ 64 ∧ t.rdNat (key + 8) 4 = z)
        ∧ (nearer z id (s.rdNat (key + 8) 4) (s.rdNat key 8) = false → t.memory = s.memory)
        ∧ (rest = [] → Over t op))
    ∧ (∀ d h a la lane, o.cap.instr = .tex d h a la → lane < 32 →
      let xs := o.todo.filter fun x => x.lane == lane
      xs ≠ [] → (∀ x ∈ xs, isSram x.pa = true ∧ s.poisoned x.pa x.size = false) →
      (s.acceptMem o.gs (xs.map (·.pa))).isSome = true →
      let out := (Texture.of (o.nums.headD 0) (o.nums.getD 1 0)).result (o.operand a lane) (o.operand (a + 1) lane) (o.operand (a + 2) lane)
        (xs.map fun x => s.rdNat x.pa x.size)
      Happens (.evTextureReturn op lane) s fun t => LaneGets s t o.gs d lane ((List.range 4).map fun j => out.getD j 0) ∧ t.memory = s.memory)

/-- R247, R250, R252, R364, R365, R399, R437: a queued ray is taken up and runs; a finished ray's hit and code come to the lane that waits for its
record; RALC gives a lane the lowest free record, or the null address once its stall limit has passed; a landing's time-out makes its pending records
a batch; a retired consumer team's records are free again.
Where the spec is silent it holds by the model's own choice: log entries 1, 32, 33. -/
def Obligations.RayAndLandingEvents : Prop :=
  ∀ s : State, Idle s →
    (∀ core ctx r bs x, (∀ q ∈ s.rays, q.stuck ≠ 2) → (s.rays.find? fun q => q.queued && q.ctx == ctx) = some r → core < 256 →
      s.dieReady (core / 64) = true → s.raySlots core r.budget ≠ 0 → s.recordSaved r = false → s.engineRead r.grid r.ctx r.record 192 = .ok bs →
      recSdepth bs ≤ 8 → s.engineRead r.grid r.ctx r.layoutVa 64 = .ok x → Layout.ok x = true →
      (let keys := fun va n => (s.keys r.grid r.ctx Need.load va n).toOption.getD []
       (s.chargeRay { r with core := core } (keys r.record 192 ++ keys r.layoutVa 64)).isSome = true) →
      Happens (.evRayTakeUp core ctx) s fun t => t.memory = s.memory ∧ ∃ q ∈ t.rays, q.id = r.id ∧ q.record = r.record ∧ q.core = core
        ∧ q.queued = false ∧ q.faulted = none ∧ q.layout = x ∧ recStatus q.bytes = 1 ∧ q.kids = [] ∧ q.cand = none)
    ∧ (∀ id r c g p, (s.rays.find? fun q => q.id == id) = some r → r.faulted = none → r.queued = false → r.stuck ≠ 1 → r.code = some c → r.only = false → r.mute = false →
      s.group? (recOwner r.bytes) = some g → (g.rays.find? fun q => q.record == r.record && g.ctx == r.ctx) = some p → p.lane < 32 →
      Happens (.evRayDelivery id) s fun t => LaneGets s t (recOwner r.bytes) p.dest p.lane
          (((List.range 5).map fun j => fieldAt r.bytes (0x7C + 4 * j) 4) ++ [c])
        ∧ (∀ q ∈ t.rays, q.id ≠ id) ∧ ∀ g', t.group? (recOwner r.bytes) = some g' → p ∉ g'.rays)
    ∧ (∀ op o d h a la l g base lane, s.op? op = some o → o.cap.instr = .ralc d h a la → o.complete = false → o.suspended = none →
      o.nums = [base, lane] → lane < 32 → s.group? o.gs = some g → s.landing? g.ctx base = some l →
      let ctx := g.ctx
      let gives := fun (t : State) (addr : Nat) (null : Bool) => LaneGets s t o.gs d lane [addr % 2 ^ 32, addr / 2 ^ 32]
        ∧ (a ≠ 0 → ∃ g', t.group? o.gs = some g' ∧ (g'.pred a).getLsbD lane = null) ∧ Over t op
      (∀ n, lowest l.free = some n → l.waiting = [] → Happens (.evRalcServe op) s fun t => gives t (l.address n) false
        ∧ ∃ l', t.landing? ctx base = some l' ∧ l'.free = l.free.filter (· != n) ∧ l'.allocated = l.allocated ++ [(n, g.team)])
      ∧ (0 < l.stall → o.issuedAt + l.stall ≤ s.now → l.waiting = [] → Happens (.evRalcStallExpiry op) s fun t => gives t 0 true))
    ∧ (∀ key l r g, (s.landings.find? fun q => q.key == key && q.due.any fun n => decide (n ≤ s.now)) = some l → s.landing? l.ctx key = some l →
      l.pend.getLast? = some r → s.grid? r.grid = some g → l.checked = some 0 → Happens (.evBatchTimeout key) s fun t =>
        ∃ l', t.landing? l.ctx key = some l' ∧ l'.pend = [] ∧ l'.batches = l.batches + 1
          ∧ l'.formed = l.formed ++ [{ index := l.batches, budget := r.budget, launch := r.grid, records := l.pend }])
    ∧ (∀ team tm key rs g l, s.team? team = some tm → tm.batch = some (key, rs) → s.grid? tm.grid = some g → tm.ended = true →
      tm.consumerDone = false → s.landing? g.ctx key = some l → Happens (.evRecordReturn team) s fun t =>
        (∃ l', t.landing? g.ctx key = some l' ∧ l'.free = l.free ++ rs) ∧ ∃ tm', t.team? team = some tm' ∧ tm'.consumerDone = true)

/-- R387, R389 to R391, R409, R455: a doorbell notes its queue's TAIL, or stops the queue; a packet is checked whole and HEAD passes it; a team is placed
and its groups stand at the entry; a launch ends with its status; TKILL and the requests of PREQ reach the teams they name.
Where the spec is silent it holds by the model's own choice: log entries 9, 34 to 37, 41. -/
def Obligations.LaunchEvents : Prop :=
  ∀ s : State, Idle s →
    (∀ q, q < 64 → s.trip = false → s.queueLate q = false → s.queueOn q = true →
      (s.queueBreaks q (s.queueTail q) = false → Happens (.evLqbell q) s fun t => t = { s with rung := t.rung, bells := t.bells }
        ∧ sget 0 t.rung q = s.queueTail q + 1 ∧ sget 0 t.bells q = s.fills)
      ∧ (∀ key, s.queueBreaks q (s.queueTail q) = true → s.recordReach (s.queuePa q + 0x10) 4 = .ok key false → Happens (.evLqbell q) s fun t =>
        t = { s with memory := t.memory, msix := 0 :: s.msix }
        ∧ t.queueOn q = false ∧ t.queueErr q = true ∧ ∀ k, k < key ∨ key + 4 ≤ k → t.rdByte k = s.rdByte k))
    ∧ (∀ q p key, s.packetWaits q = true → s.queueBreaks q (sget 0 s.rung q - 1) = false → s.packetAt q = some p → s.checkWaits (s.queueCtx q) p = false →
      s.recordReach (s.queuePa q + 8) 4 = .ok key false →
      Happens (.evLaunchPacket q) s fun t =>
        let reason := s.packetReason (s.queueCtx q) (s.queueWord q / 2 ^ 8 % 4) p
        t.queueHead q = (s.queueHead q + 1) % 2 ^ 32 ∧ t.nextGrid = s.nextGrid + 1
        ∧ ∃ g, t.grids = s.grids ++ [g] ∧ g.key = s.nextGrid ∧ g.queue = q ∧ g.packet = p ∧ g.reason = reason
          ∧ g.accepted = decide (reason = 0) ∧ g.nextTeam = 0 ∧ g.teams = (if reason = 0 then p.teams else 0)
          ∧ g.ctx = s.queueCtx q ∧ g.status = (if reason = 0 then 0 else 1))
    ∧ (∀ key g core, s.grid? key = some g → s.dispatchable g = true → s.placeFor g = some core → s.mayPlace g = true →
      g.consumerOf = none → Packet.cluster g.packet = false → Happens (.evTeamPlacement key) s fun t =>
        (∃ g', t.grid? key = some g' ∧ g'.nextTeam = g.nextTeam + 1)
        ∧ (∃ tm, (t.teams.drop s.teams.length) = [tm] ∧ tm.serial = s.nextTeam ∧ tm.grid = g.key ∧ tm.index = g.nextTeam ∧ tm.core = core
            ∧ tm.tbytes = Packet.tbytes g.packet ∧ tm.ended = false ∧ tm.saved = false ∧ tm.slots.length = Packet.groups g.packet
            ∧ tm.tiles.length = Packet.tiles g.packet)
        ∧ (t.groups.drop s.groups.length).length = Packet.groups g.packet
        ∧ ∀ x ∈ t.groups.drop s.groups.length, x.team = s.nextTeam ∧ x.vregs = [] ∧ x.preds = []
            ∧ sget 0 x.sregs 0 = BitVec.ofNat 32 (Packet.args g.packet) ∧ sget 0 x.sregs 1 = BitVec.ofNat 32 (Packet.args g.packet / 2 ^ 32)
            ∧ ∀ f ∈ x.frags, f.pc = BitVec.ofNat 64 (Packet.entry g.packet) ∧ f.mr = mrReset (Packet.d g.packet) ∧ f.clr = 0
                ∧ f.exec = x.lanes ∧ f.st = .running)
    ∧ (∀ key g, s.grid? key = some g → s.launchOver g = true →
      (Packet.record g.packet ≠ 0 → s.deviceWaits g.key g.ctx (Packet.record g.packet) 16 = false) → Happens (.evLaunchCompletion key) s fun t =>
        (∃ g', t.grid? key = some g' ∧ g'.finished = true ∧ (g'.status, g'.reason) = s.verdict g)
        ∧ ∀ c, s.landings = [] → (if Packet.record g.packet = 0 then c = s else
            s.deviceWrite g.key g.ctx (Packet.record g.packet) (completionRecord (s.verdict g).1 (s.verdict g).2 g.kills s.now) = some c) →
          t.memory = c.memory ∧ t.msix = (if Packet.intr g.packet then [Packet.vector g.packet] else []) ++ s.msix)
    ∧ (∀ v g, g ∈ s.grids → g.finished = false → g.ctx = v / 2 ^ 32 % 2 ^ 16 → Packet.gridId g.packet = v % 2 ^ 32 → s.ops = [] → s.rays = [] →
      (∀ tm ∈ s.teams, tm.unit = none) → Happens (.evTkill v) s fun t => ∀ tm, s.team? tm.serial = some tm → tm.grid = g.key →
        ∃ tm', t.team? tm.serial = some tm' ∧ tm'.ended = true)
    ∧ (∀ v tm (j : Nat), s.teams[j]? = some tm → s.team? tm.serial = some tm → tm.ended = false → tm.saved = false → s.preqNames v tm = true → v < 2 ^ 26 →
      (Nat.testBit v 25 = false → tm.request = none → Happens (.evPreemptRequest v) s fun t =>
        t.teams[j]?.map (·.request) = some (some { since := s.now, byDispatcher := none }) ∧ t.memory = s.memory ∧ t.groups = s.groups)
      ∧ (Nat.testBit v 25 = true → Happens (.evPreemptCancel v) s fun t => t.teams[j]?.map (·.request) = some none ∧ t.memory = s.memory
          ∧ (tm.request.isSome = true → ∀ x ∈ t.groups, x.team = tm.serial → x.fullStop = false ∧ ∀ f ∈ x.frags, f.st ≠ .stopped)))

/-- R126, R129, R309, R411 to R414, R443, R465: a team whose groups can be saved is saved, and one for which there is room is restored; a group is stopped
whole 100 µs after the request; a core's scopes are saved, reinstated and granted; YIELD ends after 16 clk; a silent group takes WATCHDOG; an
uncorrectable error of a core's state is counted.
Where the spec is silent it holds by the model's own choice: log entries 16, 17, 38, 39, 43, 47. -/
def Obligations.TeamEvents : Prop :=
  ∀ s : State, Idle s →
    (∀ serial tm g u c, s.team? serial = some tm → s.grid? tm.grid = some g → tm.cluster = none → tm.ended = false → tm.saved = false →
      s.canSaveTeam tm = true → s.lowestUnits g.key g.ctx 1 = [u] → s.saveWaits g.ctx g.key [(tm, u)] = false →
      (s.stopTx tm).saveOne g.ctx u tm = .ok c → Happens (.evTeamSave serial) s fun t =>
        (∃ tm', t.team? serial = some tm' ∧ tm'.saved = true ∧ tm'.request = none ∧ tm'.unit = some u)
        ∧ ∀ x ∈ t.groups, x.team = serial → x.ended = false → x.saved = true)
    ∧ (∀ serial tm g u c, s.team? serial = some tm → s.grid? tm.grid = some g → tm.cluster = none → tm.ended = false → s.roomToRestore tm = true →
      s.givesWay tm = false → s.badBlock g.key g.ctx tm.image = none → tm.unit = some u → s.ops = [] → (∀ x ∈ s.groups, x.rays = [] ∧ x.parked = []) →
      (∀ x ∈ s.groups, x.team = serial → tm.parkedSaved (tm.home.getD x.gid 0) = false) →
      (let e := (s.enterCore tm).keepEnded tm
       let e := e.modTeam serial fun x => { x with unit := none, saved := false }
       e.deviceWaits tm.grid g.ctx (e.mapVa g.ctx u) 1 = false ∧ e.mapUnit tm.grid g.ctx u false = some c) →
      (∀ b ∈ tm.image, s.deviceWaits g.key g.ctx b.2.1 b.2.2.length = false) →
      Happens (.evTeamRestore serial) s fun t => t.memory = c.memory ∧ (∃ tm', t.team? serial = some tm' ∧ tm'.saved = false ∧ tm'.unit = none)
        ∧ ∀ x ∈ s.groups, x.team = serial → x.ended = false → ∃ y ∈ t.groups, y.gs = tm.home.getD x.gid 0 ∧ y.saved = false
            ∧ y.vregs = x.vregs ∧ y.sregs = x.sregs ∧ y.preds = x.preds ∧ y.scopes = x.scopes)
    ∧ (∀ gs g tm r, s.group? gs = some g → s.team? g.team = some tm → tm.request = some r → r.since + 100000 ≤ s.now → g.ended = false →
      g.saved = false → g.stoppedByMaps = false → (∀ x, g.tx.st ≠ .opened x) → Happens (.evFullSaveEscalation gs) s fun t =>
        t = { s with groups := t.groups } ∧ ∃ g', t.group? gs = some g' ∧ g' = { g with fullStop := true })
    ∧ (∀ core o g tm c, (∀ x ∈ s.onCore core, x.waitsScope = true) → oldest (s.onCore core) = some o →
      s.freeBytes core < (if o.savedScopes.isSome then o.savedNeed else o.scopeNeed) → s.team? g.team = some tm →
      youngest ((s.onCore core).filter fun x => x.gs != o.gs && x.savedScopes.isNone && !x.scopes.isEmpty && x.handler.isNone) = some g →
      (let va := s.slotVa g.ctx g.gs + frameOffset + charge g.tangents (g.alloc - g.scopeSum)
       s.deviceWaits tm.grid g.ctx va g.savedNeed = false ∧ s.deviceWrite tm.grid g.ctx va (hiddenBytes s.tick va g.savedNeed) = some c) →
      s.group? g.gs = some g →
      Happens (.evRscopePressure core) s fun t => ∃ g', t.group? g.gs = some g' ∧ g'.savedScopes = some g.scopeWords
        ∧ ∀ r k l, k ≤ g.tangents → l < 32 → g'.vword r k l = if r < g.alloc - g.scopeSum then g.vword r k l else 0)
    ∧ (∀ core g, s.group? g.gs = some g →
      (s.toReinstate core = some g → Happens (.evScopeServe core) s fun t => t = { s with groups := t.groups }
        ∧ t.group? g.gs = some g.reinstate)
      ∧ (s.toReinstate core = none → s.toGrant core = some g → Happens (.evScopeServe core) s fun t => t = { s with groups := t.groups }
        ∧ t.group? g.gs = some { g with granted := true }))
    ∧ (∀ gs g since, s.group? gs = some g → g.yielded = some since → s.clockAt gs since + 16 ≤ s.clock gs →
      Happens (.evYieldExpiry gs) s fun t => t = { s with groups := t.groups } ∧ t.group? gs = some { g with yielded := none })
    ∧ (∀ gs g, s.group? gs = some g → g.ended = false → g.saved = false → s.dogDue g = true → g.frags ≠ [] → Happens (.evWatchdog gs) s fun t =>
        t = { s with groups := t.groups } ∧ ∃ g', t.group? gs = some g' ∧ g'.dogCount = 0
          ∧ ∃ f ∈ g'.frags, f.traps.getLast? = some { cause := 12, sub := 0, addr := 0 })
    ∧ (∀ gs g pc src, s.group? gs = some g → g.ended = false → g.saved = false → 4 ≤ src → src ≤ 6 → s.ops = [] → s.rays = [] →
      (∀ tm ∈ s.teams, tm.unit = none) → (∀ x ∈ s.groups, x.parked = []) → (∀ k, s.stackWaits k = false ∧ s.stackDown k = false) → Happens (.evCoreStateUncorrectable gs pc src) s fun t =>
        t.uecnt = (if s.uecnt = 0xFFFFFFFF then s.uecnt else s.uecnt + 1) ∧ t.uesrc = BitVec.ofNat 32 src
        ∧ ∀ tm, t.team? g.team = some tm → tm.ended = true)

/-- R225, R301 to R303, R451 to R453: an entry is written at its place in the ring, and FQPROD passes it; the record of a parked fragment
in its group's context slot follows. A response without FAIL lets an operation or a parked fragment go on, and one with FAIL has its
fragment trap in place; disabling an idle ring clears EN and nothing else.
Where the spec is silent it holds by the model's own choice: log entries 18, 39, 42. -/
def Obligations.FaultEvents : Prop :=
  ∀ s : State, Idle s → (∀ o ∈ s.ops, ∀ d h la, o.cap.instr ≠ .crld d h la) → (∀ g ∈ s.groups, g.rays = []) →
    (∀ before f after key chk, s.ringInUse = true → s.ringRoom = true → firstUnsent s.faults = some (before, f, after) →
      s.physical s.nextGrid (s.deviceKey (s.fqbase.toNat + 64 * (s.fqprod.toNat % 2 ^ s.fqLog.toNat))) false = .ok key chk → s.stackWaits key = false →
      (f.kind = 0 → ∀ g, s.group? f.gs = some g → ∀ p ∈ g.parked, p.cap.act ≠ f.mask) →
      Happens .evFaultQueueEntry s fun t => t.faults = before ++ { f with seq := some s.fqprod.toNat } :: after ∧ t.fqprod = s.fqprod + 1
        ∧ (∀ k, k < key ∨ key + 64 ≤ k → t.rdByte k = s.rdByte k) ∧ t.rdNat key 4 = s.fqprod.toNat
        ∧ t.rdNat (key + 4) 1 = f.cause % 256 ∧ t.rdNat (key + 8) 4 = f.grid % 2 ^ 32 ∧ t.rdNat (key + 16) 8 = f.vaddr % 2 ^ 64)
    ∧ (∀ before f after key chk g p c, s.ringInUse = true → s.ringRoom = true → firstUnsent s.faults = some (before, f, after) →
      s.physical s.nextGrid (s.deviceKey (s.fqbase.toNat + 64 * (s.fqprod.toNat % 2 ^ s.fqLog.toNat))) false = .ok key chk → s.stackWaits key = false →
      f.kind = 0 →
      let u := s.storeBytes key (s.entryBytes f s.fqprod.toNat)
      let p' := { p with seq := some s.fqprod.toNat }
      u.group? f.gs = some g → g.saved = false → g.parked = [p] → p.cap.act = f.mask → p.seq = none → u.parkedWait { g with parked := [p'] } = false →
      u.writeParked { g with parked := [p'] } = some c →
      Happens .evFaultQueueEntry s fun t => t.faults = before ++ { f with seq := some s.fqprod.toNat } :: after ∧ t.fqprod = s.fqprod + 1
        ∧ t.memory = c.memory ∧ (t.group? f.gs).map (·.parked) = some [p'])
    ∧ (∀ seq f, (s.faults.find? fun x => x.seq == some seq) = some f →
      let left := s.faults.filter fun x => x.seq != some seq
      (f.kind = 1 → exec (.evFaultResponse seq) s = .next { s with
        faults := left
        ops := s.ops.map fun o => if o.id == f.target then { o with suspended := none, waits := none } else o })
      ∧ (∀ g p c, f.kind = 0 → s.group? f.gs = some g → g.saved = false → g.parked = [p] → p.cap.act = f.mask →
          s.parkedWait { g with parked := [] } = false → s.writeParked { g with parked := [] } = some c →
          let resumes := fun (i : Instr) (traps : Bool) => Happens i s fun t => t = { c with faults := left, groups := t.groups }
            ∧ ∃ g' x, t.group? f.gs = some g' ∧ g'.parked = [] ∧ g'.frags = x :: g.frags ∧ x.exec = f.mask ∧ x.pc = p.next ∧ x.mr = p.mr
              ∧ x.inject = { p.cap with trapping := traps } :: p.rest
              ∧ x.traps = (if traps then [{ cause := p.cause, sub := 0, addr := p.addr }] else [])
          resumes (.evFaultResponse seq) false ∧ resumes (.evFaultResponseFail seq) true))
    ∧ ((∀ f ∈ s.faults, f.seq.isSome = true) → exec .evFaultQueueDisable s = .next { s with fqEn := false })

/-- R429, R430, R457 to R459, R461, R464, R466 to R470: reset, bring-up and its failures, firmware, synchronisation, the clocks, soft errors and the protective
trip.
Where the spec is silent it holds by the model's own choice: log entries 7, 9, 41, 46, 47. -/
def Obligations.DeviceEvents : Prop :=
  ∀ s : State, Idle s →
    let told := fun (s t : State) (n : Nat) (ok : Bool) => (∀ j, j < 32 → t.ready.getLsbD j = (s.ready.getLsbD j || (ok && j == n)))
      ∧ (∀ j, j < 32 → (j == 28) = false → t.failed.getLsbD j = (s.failed.getLsbD j || (!ok && j == n))) ∧ t.msix = 7 :: s.msix
    let unset := fun (n : Nat) => s.ready.getLsbD n = false ∧ s.failed.getLsbD n = false
    let same := fun (t : State) => t.memory = s.memory ∧ t.groups = s.groups ∧ t.teams = s.teams
    Happens .evDeviceReset s (fun t => t.memory = s.memory ∧ t.ready = 0 ∧ t.failed = 0 ∧ t.trip = false ∧ t.groups = [] ∧ t.teams = []
      ∧ t.grids = [] ∧ t.ops = [] ∧ t.rays = [] ∧ t.landings = [] ∧ t.clusters = [] ∧ t.lqtab = 0 ∧ t.wdog = 0 ∧ t.fqEn = false ∧ t.tlb = [] ∧ t.walks = [] ∧ t.belated = []
      ∧ t.prcnt = 0 ∧ t.live = false ∧ t.rayLive = false ∧ t.l2i = [] ∧ t.late = [] ∧ t.firmware = s.firmwareNext.getD s.firmware
      -- the image before is kept until a die has accepted the new one (R470)
      ∧ (s.firmwareNext.isSome = true → t.firmwareKept.isSome = true))
    ∧ (∀ d, d < 4 → unset (8 + d) →
        Happens (.evDieReady d 1) s (fun t => told s t (8 + d) true ∧ t.firmwareKept = none ∧ (∀ x, x < 2 ^ 29 → t.rdByte (sramKey (d * 2 ^ 29 + x)) = 0)
          ∧ (∀ k, k < sramKey (d * 2 ^ 29) ∨ sramKey (d * 2 ^ 29) + 2 ^ 29 ≤ k → t.rdByte k = s.rdByte k)
          ∧ ∀ c, c < 16 → (sget Cluster.reset t.clusters (16 * d + c)).fcur = 44 ∧ (sget Cluster.reset t.clusters (16 * d + c)).head = 1)
        ∧ Happens (.evDieReady d 0) s (fun t => told s t (8 + d) false ∧ same t)
        ∧ Happens (.evDieReady d 2) s (fun t => told s t (8 + d) false ∧ t.failed.getLsbD 28 = true ∧ same t))
    ∧ (∀ n ok, n < 8 → unset n →
        (s.belated = [] → s.late = [] → s.landings = [] → Happens (.evStackReady n ok) s fun t => told s t n (ok == 1) ∧ same t)
        -- what waited for a stack goes on: writes, doorbells, batches and landings that are given up
        ∧ ∃ u, exec (.evStackReady n ok) { s with belated := [], late := [], landings := [] } = .next u
          ∧ exec (.evStackReady n ok) s = .next
              ((s.late.foldl State.makeLate { u with belated := s.belated, landings := s.landings }).ringBelated.formLate).dropLandings)
    ∧ (∀ n ok, n < 16 → unset (12 + n) → Happens (.evPortReady n ok) s fun t => told s t (12 + n) (ok == 1) ∧ same t)
    ∧ (∀ n, n < 16 → s.ready.getLsbD (12 + n) = true → Happens (.evPortDown n) s fun t =>
        (∀ j, j < 32 → t.ready.getLsbD j = (s.ready.getLsbD j && j != 12 + n)) ∧ t.msix = 7 :: s.msix ∧ same t)
    ∧ (∀ e l v, (e ≠ 0 → l ≠ 0 → Config.leastFirmware ≤ v → exec (.evFirmwareUpdate e l v) s = .next { s with firmwareNext := some v })
        ∧ (e = 0 ∨ l = 0 ∨ v < Config.leastFirmware → exec (.evFirmwareUpdate e l v) s = .next s))
    ∧ (∀ p off, p < 16 → s.portReady p = true → Happens (.evPtpSync off) s fun t =>
        t = { s with ptpOffset := min off 65535, ptpGood := t.ptpGood, ptpLock := t.ptpLock }
        ∧ (64 < off → t.ptpLock = false) ∧ (off ≤ 64 → s.ptpLock = true → t.ptpLock = true)
        ∧ (off ≤ 32 → 15 ≤ s.ptpGood → t.ptpLock = true) ∧ (32 < off → s.ptpLock = false → t.ptpLock = false))
    ∧ (∀ c v, c < 64 → s.dieReady (c / 16) = true →
        let k := sget Cluster.reset s.clusters c
        (v % 64 ≤ 56 → k.pending.isSome = true ∨ v % 64 ≠ k.fcur → Happens (.evFsetWrite c v) s fun t => t = { s with clusters := t.clusters }
          ∧ sget Cluster.reset t.clusters c = { k with fset := v % 64, chg := 1, pending := some (v % 64, s.now) })
        ∧ (57 ≤ v % 64 → Happens (.evFsetWrite c v) s fun t => sget Cluster.reset t.clusters c = k)
        ∧ ∀ code at', k.pending = some (code, at') → code ≠ k.fcur → Happens (.evFrequencyChange c) s fun t =>
            let when' := (s.now + 39) / 40 * 40
            let k' := sget Cluster.reset t.clusters c
            t = { s with now := max s.now (s.latest when'), clusters := t.clusters }
            -- a code that was in effect for no time has no entry: the change waits for the next boundary (R462)
            ∧ ((∃ e ∈ k.trace, when' ≤ e.2.1) → k' = k)
            ∧ ((∀ e ∈ k.trace, e.2.1 < when') → k' = { k with
                pending := none, chg := 0, fcur := code, head := (k.head + 1) % 2 ^ 32, trace := ((k.head, when', code) :: k.trace).take 4096
                base := k'.base }))
    ∧ (∀ addr kind, s.scrubbed addr = true → kind = 2 ∨ (kind = 3 ∧ isSram addr = false) →
        let bump := fun (w : Word) => if w = 0xFFFFFFFF then w else w + 1
        exec (.evScrub addr 1) s = .next { s with cecnt := bump s.cecnt }
        ∧ Happens (.evScrub addr kind) s (fun t => poisonUnit addr ∈ t.poison ∧ (∀ x, x ∈ s.poison → x ∈ t.poison) ∧ t.uecnt = bump s.uecnt
            ∧ t.ueaddr = BitVec.ofNat 64 addr ∧ t.uesrc = (if isSram addr then 3 else if kind = 2 then 1 else 2) ∧ same t))
    ∧ (s.trip = false → s.ops = [] → s.rays = [] → (∀ tm ∈ s.teams, tm.unit = none) → Happens .evProtectiveTrip s fun t =>
        t.trip = true ∧ t.msix.head? = some 8 ∧ t.mctp = s.mctp + 1 ∧ ∀ tm, s.team? tm.serial = some tm → ∃ tm', t.team? tm.serial = some tm' ∧ tm'.ended = true)

/-- R314, R402, R403, R409, R425, R432, R435, R451, R467: the writes of the outside world to memory and to registers, the invalidation commands and their ends,
and the start of a budget window.
Where the spec is silent it holds by the model's own choice: log entries 9, 44, 45, 48. -/
def Obligations.OutsideAndRegisters : Prop :=
  ∀ s : State, Idle s →
    (∀ addr (bytes : List Nat), addr + bytes.length ≤ 384000000000 →
      (∀ k, addr ≤ k → k < addr + bytes.length → s.stackWaits k = false ∧ s.stackFailed k = false) →
      let written := fun (t : State) => (∀ j, j < bytes.length → t.rdByte (addr + j) = BitVec.ofNat 8 (bytes.getD j 0))
        ∧ ∀ k, k < addr ∨ addr + bytes.length ≤ k → t.rdByte k = s.rdByte k
      Happens (.evHostCxlMemWrite addr bytes) s written
      ∧ (∀ p, p < 16 → s.portReady p = true → Happens (.evPeerMemoryAccess addr 1 bytes) s written
          ∧ Happens (.evPeerMemoryAccess addr 0 bytes) s fun t => t.memory = s.memory))
    ∧ (exec .evPrcntRead s = .next { s with prcnt := 0 } ∧ exec .evCecntClear s = .next { s with cecnt := 0 }
      ∧ exec .evUecntClear s = .next { s with uecnt := 0 })
    ∧ (let start := fun (i : Instr) (n : Nat) =>
         (s.tlbBusy = false → s.tva.toNat % 4 = n →
            exec i s = .next { s with tlbBusy := true, tlbRun := { scope := n, va := cmdVa s.tva, ctx := s.tctx.toNat } })
         ∧ (s.tlbBusy = true ∨ s.tva.toNat % 4 ≠ n → exec i s = .next s)
       let scope := s.tlbRun.scope
       start .evTlbInvalidateVa 0 ∧ start .evTlbInvalidateContext 1 ∧ start .evTlbInvalidateAll 2
       ∧ (s.tlbBusy = true → (∀ o ∈ s.ops, s.oldOp o = false) → Happens .evTlbInvalidateDone s fun t =>
           t = { s with tlbBusy := false, tlb := t.tlb, walks := t.walks, msix := 3 :: s.msix }
           ∧ (scope = 2 → t.tlb = [] ∧ t.walks = [])
           ∧ (scope = 1 → t.tlb = s.tlb.filter (fun x => x.ctx != s.tlbRun.ctx) ∧ t.walks = s.walks.filter fun x => x.ctx != s.tlbRun.ctx)
           ∧ (scope = 0 → (∀ x, x ∈ t.tlb ↔ x ∈ s.tlb ∧ ¬ (x.ctx = s.tlbRun.ctx ∧ x.va ≤ s.tlbRun.va ∧ s.tlbRun.va < x.va + x.size))
             ∧ ∀ x, x ∈ t.walks ↔ x ∈ s.walks ∧ ¬ (x.ctx = s.tlbRun.ctx ∧ x.upper = upperBits x.level s.tlbRun.va))))
    ∧ (let start := fun (i : Instr) (n : Nat) =>
         (s.icBusy = false → s.icva.toNat % 4 = n →
            exec i s = .next { s with icBusy := true, icRun := { scope := n, va := cmdVa s.icva, ctx := s.icctx.toNat } })
         ∧ (s.icBusy = true ∨ s.icva.toNat % 4 ≠ n → exec i s = .next s)
       let scope := s.icRun.scope
       start .evIcacheInvalidateVa 0 ∧ start .evIcacheInvalidateContext 1 ∧ start .evIcacheInvalidateAll 2
       ∧ (s.icBusy = true → Happens .evIcacheInvalidateDone s fun t =>
           t = { s with icBusy := false, icache := t.icache, l2i := t.l2i, groups := t.groups, msix := 4 :: s.msix }
           -- no cache holds a line of what the command names, and no fragment goes on in one
           ∧ (let stays := fun (ctx va : Nat) => scope ≠ 2 ∧ (scope = 1 → ctx ≠ s.icRun.ctx)
                ∧ (scope = 0 → WholePages s → ctx = s.icRun.ctx → va / 4096 ≠ s.icRun.va / 4096)
              (∀ x ∈ t.icache, x ∈ s.icache ∧ stays x.ctx x.va) ∧ (∀ x ∈ t.l2i, x ∈ s.l2i ∧ stays x.ctx x.va)
              ∧ ∀ g ∈ t.groups, ∀ f ∈ g.frags, ∀ c, f.code = some c → stays g.ctx c.1)
           ∧ (scope = 1 → t.icache = s.icache.filter (fun x => x.ctx != s.icRun.ctx) ∧ t.l2i = s.l2i.filter fun x => x.ctx != s.icRun.ctx)))
    ∧ (s.window ≠ s.now / 1000 → exec .evBudgetWindow s = .next { s with window := s.now / 1000, charges := [] })
    ∧ (∀ v, let w := fun (off n : Nat) => exec (.evRegisterWrite off v n) s
       w 0x1000 8 = .next { s with lqtab := BitVec.ofNat 64 v }
       -- the context table names what is race-checked, and so what has tags (R336)
       ∧ Happens (.evRegisterWrite 0x1010 v 8) s (fun t =>
           t = { s with ctxtab := BitVec.ofNat 64 v, tags := t.tags, syncs := t.syncs, commits := t.commits })
       ∧ w 0x1020 8 = .next { s with tva := BitVec.ofNat 64 v } ∧ w 0x1030 8 = .next { s with icva := BitVec.ofNat 64 v }
       ∧ w 0x1040 4 = .next { s with mesh := BitVec.ofNat 8 v, meshWritten := true } ∧ w 0x1050 4 = .next { s with wdog := BitVec.ofNat 24 v }
       ∧ w 0x1060 8 = .next { s with fqbase := BitVec.ofNat 64 v } ∧ w 0x1070 4 = .next { s with fqcons := BitVec.ofNat 32 v }
       ∧ w 0x1080 4 = .next { s with cecnt := 0 } ∧ w 0x1084 4 = .next { s with uecnt := 0 }
       ∧ ∀ b, b < 64 → Happens (.evRegisterWrite (0x2000 + 16 * b) v 4) s fun t => t = { s with budgets := t.budgets }
           ∧ (t.budget b).memb = BitVec.ofNat 32 v ∧ ∀ c, c ≠ b → t.budget c = s.budget c)


/-! ## Words, steps and states -/

/-- R77, R90, R258: words of the encoding tables, written out from the spec, decode to what they stand for: control, scalar, lane, float, memory,
cross-lane, engine words and a microword.
Where the spec is silent it holds by the model's own choice: log entry 8. -/
def Obligations.DecodeWords : Prop :=
  decodeWord 0x02002553 = .ok (.setm 0x2553) ∧ decodeWord 0x19081430 = .ok (.sadd 4 5 6) ∧ decodeWord 0x2604102E = .ok (.scmp 2 4 5 6)
  ∧ decodeWord 0x2A040001 = .ok (.sld 2 0 0 1) ∧ decodeWord 0x520C0410 = .ok (.bfe 6 1 2) ∧ decodeWord 0x5A0C1BFD = .ok (.iaddImm 6 6 0x3FD)
  ∧ decodeWord 0x62040BA0 = .ok (.fmul 2 2 116) ∧ decodeWord 0x80040802 = .ok (.tseed 2 2 2) ∧ decodeWord 0x950E1399 = .ok (.scan 7 4 115 1)
  ∧ decodeWord 0xA4040421 = .ok (.ldB32 2 1 2 1) ∧ decodeWord 0xD750A020 = .ok (.cruz 40 20 2 0) ∧ decodeMicro 0x4B018000 = .ok (.uJz 3 12 0)

/-- R77, R90, R257, R258: decode and encode agree. Every instruction that has a kernel word, every field at any value of its width, is what its
word decodes to, and its bytes in memory; every 32-bit word that decodes is the word of what it decodes to. Microwords likewise.
Where the spec is silent it holds by the model's own choice: log entry 8. -/
def Obligations.DecodeEncode : Prop :=
  (∀ i, fits i = true → (encodingOf i).isSome = true → ∃ w, w < 2 ^ 32 ∧ encode i = some w
    ∧ (isMicro i = false → decodeWord w = .ok i ∧ ∀ rest, decodeBytes (encodeBytes i ++ rest) = .ok (i, rest))
    ∧ (isMicro i = true → decodeMicro w = .ok i ∧ ∀ rest, decodeMicroBytes (encodeBytes i ++ rest) = .ok (i, rest)))
  ∧ ∀ w i, w < 2 ^ 32 → (decodeWord w = .ok i → fits i = true ∧ isMicro i = false ∧ encode i = some w)
    ∧ (decodeMicro w = .ok i → fits i = true ∧ isMicro i = true ∧ encode i = some w)

/-- R77, R91, R112, R259: a step does what has been decided: it runs the instruction whose word lies at the fragment's PC, or the one to be
issued again, the microword at the ray's micro-PC, the event, or the oldest action of the outside world; a word that is none is ILLEGAL. Otherwise
it decides for one of the actions that may come next, which is the model's form of what the spec leaves open (log entry 4). -/
def Obligations.StepRunsDecoded : Prop :=
  ∀ s : State,
    let s0 : State := { s with turn := none }
    (∀ gs frag, s.turn = some (.issue gs frag) →
      let u := s0.parkRay.take gs frag
      let va := u.fr.pc.toNat
      u.live = true →
        (∀ key chk, u.ov = none → u.waitsFirst = false → u.resolve u.myGridKey u.me.ctx none Need.code va 4 = .ok key chk → va % 4 = 0 →
          -- where the fragment has come to a new line which no cache holds, the word is that of memory
          (u.fr.code = none → lineOf u.icache (coreOf gs) u.me.ctx va = none → lineOf u.l2i (coreOf gs / 64) u.me.ctx va = none →
            u.stackWaits key = false → u.poisoned (key / 64 * 64) 64 = false → key % 64 = va % 64 → ∃ lines lines2,
              let t : State := { u with icache := lines, l2i := lines2, fr := { u.fr with code := some (va / 64 * 64, u.rdBytes (key / 64 * 64) 64) } }
              (∀ i, decodeWord (u.rdNat key 4) = .ok i → step s = exec i t)
              ∧ ∀ e, decodeWord (u.rdNat key 4) = .error e → step s = exec (.evIllegalWord (u.rdNat key 4)) t)
          -- in the line that it executes it finds the words it has found
          ∧ ∀ bytes, u.fr.code = some (va / 64 * 64, bytes) →
            (∀ i, decodeWord (fieldAt bytes (va % 64) 4) = .ok i → step s = exec i u)
            ∧ ∀ e, decodeWord (fieldAt bytes (va % 64) 4) = .error e → step s = exec (.evIllegalWord (fieldAt bytes (va % 64) 4)) u)
        ∧ ∀ c i, u.ov = some c → decodeWord (wordOf c.instr) = .ok i → step s = exec i u)
    ∧ (∀ id, s.turn = some (.micro id) →
        let u := s0.park.selectRay id
        -- the image comes into the Cruiser's microcode store first, where it is not held
        let v := if u.ray.runs then u.fetchImage u.ray else u
        let w := (v.microword u.ray).getD 0
        u.rayLive = true → (∀ i, decodeMicro w = .ok i → step s = exec i v)
          ∧ ∀ e, decodeMicro w = .error e → step s = exec (.evIllegalMicroword w) v)
    ∧ (∀ i, isEvent i = true → let acts := fun (t : State) => { t with unit := (t.actor i).getD t.unit }
        (s.turn = some (.event i) → step s = exec i (acts s0))
        ∧ ∀ rest, s.turn = some .input → s.inputs = i :: rest → step s = exec i (acts { s0 with inputs := rest }))
    ∧ (let u := s.park.parkRay.countWaits.wakeAll
       s.turn = none → ∃ a ∈ u.actions, step s = .next ({ u with turn := some a } : State).draw)

/-- R457, R468: after power-up no die, stack or port is ready or has failed and nothing runs; the registers hold what their maps give for reset:
the frequency codes 44, every other register 0. Memory, in its canonical form, lists nothing, so that a byte not yet written reads 0 (the
model's choice outside the SRAM space, log entry 2). -/
def Obligations.ResetState : Prop :=
  let s := State.reset
  s.ready = 0 ∧ s.failed = 0 ∧ s.trip = false
  ∧ (∀ c, let k := sget Cluster.reset s.clusters c
      k.fset = 44 ∧ k.fcur = 44 ∧ k.chg = 0 ∧ k.energy = 0 ∧ k.head = 0)
  ∧ (∀ b, (s.budget b).memb = 0 ∧ (s.budget b).skb = 0 ∧ (s.budget b).kshare = 0 ∧ (s.budget b).rays = 0)
  ∧ s.lqtab = 0 ∧ s.ctxtab = 0 ∧ s.prcnt = 0 ∧ s.tva = 0 ∧ s.tctx = 0 ∧ s.icva = 0 ∧ s.icctx = 0 ∧ s.mesh = 0 ∧ s.wdog = 0
  ∧ s.fqbase = 0 ∧ s.fqEn = false ∧ s.fqLog = 0 ∧ s.fqprod = 0 ∧ s.fqcons = 0 ∧ s.cecnt = 0 ∧ s.uecnt = 0 ∧ s.ueaddr = 0 ∧ s.uesrc = 0
  ∧ s.live = false ∧ s.rayLive = false ∧ s.groups = [] ∧ s.teams = [] ∧ s.grids = [] ∧ s.ops = [] ∧ s.rays = [] ∧ s.landings = []
  ∧ s.l1 = [] ∧ s.icache = [] ∧ s.l2i = [] ∧ s.tlb = [] ∧ s.walks = [] ∧ s.codes = [] ∧ s.recent = [] ∧ s.belated = [] ∧ s.late = [] ∧ s.tags = []
  ∧ (∀ k, s.rdByte k = 0) ∧ Sound s

/-- From every state, whether a run reaches it or not, a step answers a next state: no instruction, microword or event ends a run in a fault
or a refusal. So does every instruction where a fragment is selected, every microword where a ray is, and every event.
Where the spec is silent it holds by the model's own choice: log entries 4, 5. -/
def Obligations.EveryStepAnswers : Prop :=
  (∀ s, GoesOn s)
  ∧ ∀ s i, (isKernel i = true → s.live = true → ∃ t, exec i s = .next t) ∧ (isMicro i = true → s.rayLive = true → ∃ t, exec i s = .next t)
    ∧ (isEvent i = true → ∃ t, exec i s = .next t ∧ exec i s = exec i s.park.parkRay)

/-- A step keeps the form of states: memory canonical, every operation under a number already given, cached translations of whole pages (R420).
Where the spec is silent it holds by the model's own choice: log entries 2, 5. -/
def Obligations.StepKeepsForm : Prop := ∀ s t : State, Sound s → step s = .next t → Sound t
end

