-- ==== Sys2Proof/Laws/Exec.lean ====
section
/-!
SUPPORT. Each arm of `exec` as an equation, so that a proof about one instruction never unfolds the whole match.
-/
namespace Sys2Proof.Machine

variable (s : State)

theorem exec_setm (m : Nat) : exec (.setm m) s = execSetm m s := rfl
theorem exec_bra (p n tgt rcv : Nat) : exec (.bra p n tgt rcv) s = execBra p n tgt rcv s := rfl
theorem exec_bru (p n tgt rcv : Nat) : exec (.bru p n tgt rcv) s = execBru p n tgt rcv s := rfl
theorem exec_jmps (a : Nat) : exec (.jmps a) s = execJmps a s := rfl
theorem exec_call (p n tgt : Nat) : exec (.call p n tgt) s = execCall p n tgt s := rfl
theorem exec_calls (a : Nat) : exec (.calls a) s = execCalls a s := rfl
theorem exec_sync (rcv : Nat) : exec (.sync rcv) s = execSync rcv s := rfl
theorem exec_trap (imm : Nat) : exec (.trap imm) s = execTrap imm s := rfl
theorem exec_ppt (imm : Nat) : exec (.ppt imm) s = execPpt imm s := rfl
theorem exec_rscope (imm : Nat) : exec (.rscope imm) s = execRscope imm s := rfl
theorem exec_execr (d : Nat) : exec (.execr d) s = execExecr d s := rfl
theorem exec_execw (a : Nat) : exec (.execw a) s = execExecw a s := rfl
theorem exec_sprr (d imm : Nat) : exec (.sprr d imm) s = execSprr d imm s := rfl
theorem exec_sprw (a imm : Nat) : exec (.sprw a imm) s = execSprw a imm s := rfl
theorem exec_clkr (d : Nat) : exec (.clkr d) s = execClkr d s := rfl
theorem exec_ufirst (d a : Nat) : exec (.ufirst d a) s = execUfirst d a s := rfl
theorem exec_uchk (a : Nat) : exec (.uchk a) s = execUchk a s := rfl
theorem exec_ulane (d a imm : Nat) : exec (.ulane d a imm) s = execUlane d a imm s := rfl
theorem exec_sadd (d a b : Nat) : exec (.sadd d a b) s = execSadd d a b s := rfl
theorem exec_ssub (d a b : Nat) : exec (.ssub d a b) s = execSsub d a b s := rfl
theorem exec_smul (d a b : Nat) : exec (.smul d a b) s = execSmul d a b s := rfl
theorem exec_sand (d a b : Nat) : exec (.sand d a b) s = execSand d a b s := rfl
theorem exec_sor (d a b : Nat) : exec (.sor d a b) s = execSor d a b s := rfl
theorem exec_sxor (d a b : Nat) : exec (.sxor d a b) s = execSxor d a b s := rfl
theorem exec_sshl (d a b : Nat) : exec (.sshl d a b) s = execSshl d a b s := rfl
theorem exec_sshr (d a b : Nat) : exec (.sshr d a b) s = execSshr d a b s := rfl
theorem exec_ssar (d a b : Nat) : exec (.ssar d a b) s = execSsar d a b s := rfl
theorem exec_smov (d a : Nat) : exec (.smov d a) s = execSmov d a s := rfl
theorem exec_smulh (d a b f : Nat) : exec (.smulh d a b f) s = execSmulh d a b f s := rfl
theorem exec_smin (d a b f : Nat) : exec (.smin d a b f) s = execSmin d a b f s := rfl
theorem exec_smax (d a b f : Nat) : exec (.smax d a b f) s = execSmax d a b f s := rfl
theorem exec_scmp (d a b f : Nat) : exec (.scmp d a b f) s = execScmp d a b f s := rfl
theorem exec_qop (d a b f : Nat) : exec (.qop d a b f) s = execQop d a b f s := rfl
theorem exec_smovi (d imm : Nat) : exec (.smovi d imm) s = execSmovi d imm s := rfl
theorem exec_smovh (d imm : Nat) : exec (.smovh d imm) s = execSmovh d imm s := rfl
theorem exec_sld (d a k la : Nat) : exec (.sld d a k la) s = execSld d a k la s := rfl
theorem exec_sst (d a k la : Nat) : exec (.sst d a k la) s = execSst d a k la s := rfl
theorem exec_iadd (d a b : Nat) : exec (.iadd d a b) s = execIadd d a b s := rfl
theorem exec_isub (d a b : Nat) : exec (.isub d a b) s = execIsub d a b s := rfl
theorem exec_imul (d a b : Nat) : exec (.imul d a b) s = execImul d a b s := rfl
theorem exec_imulh (d a b : Nat) : exec (.imulh d a b) s = execImulh d a b s := rfl
theorem exec_imad (d a b : Nat) : exec (.imad d a b) s = execImad d a b s := rfl
theorem exec_imin (d a b : Nat) : exec (.imin d a b) s = execImin d a b s := rfl
theorem exec_imax (d a b : Nat) : exec (.imax d a b) s = execImax d a b s := rfl
theorem exec_iabs (d a : Nat) : exec (.iabs d a) s = execIabs d a s := rfl
theorem exec_vand (d a b : Nat) : exec (.vand d a b) s = execVand d a b s := rfl
theorem exec_vor (d a b : Nat) : exec (.vor d a b) s = execVor d a b s := rfl
theorem exec_vxor (d a b : Nat) : exec (.vxor d a b) s = execVxor d a b s := rfl
theorem exec_vandn (d a b : Nat) : exec (.vandn d a b) s = execVandn d a b s := rfl
theorem exec_shl (d a b : Nat) : exec (.shl d a b) s = execShl d a b s := rfl
theorem exec_shr (d a b : Nat) : exec (.shr d a b) s = execShr d a b s := rfl
theorem exec_sar (d a b : Nat) : exec (.sar d a b) s = execSar d a b s := rfl
theorem exec_popc (d a : Nat) : exec (.popc d a) s = execPopc d a s := rfl
theorem exec_clz (d a : Nat) : exec (.clz d a) s = execClz d a s := rfl
theorem exec_brev (d a : Nat) : exec (.brev d a) s = execBrev d a s := rfl
theorem exec_bfe (d a b : Nat) : exec (.bfe d a b) s = execBfe d a b s := rfl
theorem exec_bfi (d a b : Nat) : exec (.bfi d a b) s = execBfi d a b s := rfl
theorem exec_icmp (d a b f : Nat) : exec (.icmp d a b f) s = execIcmp d a b f s := rfl
theorem exec_sel (d a b f : Nat) : exec (.sel d a b f) s = execSel d a b f s := rfl
theorem exec_mov (d a : Nat) : exec (.mov d a) s = execMov d a s := rfl
theorem exec_movi (d imm : Nat) : exec (.movi d imm) s = execMovi d imm s := rfl
theorem exec_lea (d a b f : Nat) : exec (.lea d a b f) s = execLea d a b f s := rfl
theorem exec_plop (d a b f : Nat) : exec (.plop d a b f) s = execPlop d a b f s := rfl
theorem exec_iaddImm (d a imm : Nat) : exec (.iaddImm d a imm) s = execIaddImm d a imm s := rfl
theorem exec_andImm (d a imm : Nat) : exec (.andImm d a imm) s = execAndImm d a imm s := rfl
theorem exec_orImm (d a imm : Nat) : exec (.orImm d a imm) s = execOrImm d a imm s := rfl
theorem exec_shlImm (d a imm : Nat) : exec (.shlImm d a imm) s = execShlImm d a imm s := rfl
theorem exec_shrImm (d a imm : Nat) : exec (.shrImm d a imm) s = execShrImm d a imm s := rfl
theorem exec_sarImm (d a imm : Nat) : exec (.sarImm d a imm) s = execSarImm d a imm s := rfl
theorem exec_fadd (d a b : Nat) : exec (.fadd d a b) s = execFadd d a b s := rfl
theorem exec_fsub (d a b : Nat) : exec (.fsub d a b) s = execFsub d a b s := rfl
theorem exec_fmul (d a b : Nat) : exec (.fmul d a b) s = execFmul d a b s := rfl
theorem exec_ffma (d a b : Nat) : exec (.ffma d a b) s = execFfma d a b s := rfl
theorem exec_fmin (d a b : Nat) : exec (.fmin d a b) s = execFmin d a b s := rfl
theorem exec_fmax (d a b : Nat) : exec (.fmax d a b) s = execFmax d a b s := rfl
theorem exec_fabs (d a : Nat) : exec (.fabs d a) s = execFabs d a s := rfl
theorem exec_fneg (d a : Nat) : exec (.fneg d a) s = execFneg d a s := rfl
theorem exec_fcmp (d a b f : Nat) : exec (.fcmp d a b f) s = execFcmp d a b f s := rfl
theorem exec_fcvt (d a b : Nat) : exec (.fcvt d a b) s = execFcvt d a b s := rfl
theorem exec_frint (d a : Nat) : exec (.frint d a) s = execFrint d a s := rfl
theorem exec_fclass (d a : Nat) : exec (.fclass d a) s = execFclass d a s := rfl
theorem exec_fsat (d a : Nat) : exec (.fsat d a) s = execFsat d a s := rfl
theorem exec_rcp (d a : Nat) : exec (.rcp d a) s = execRcp d a s := rfl
theorem exec_rsq (d a : Nat) : exec (.rsq d a) s = execRsq d a s := rfl
theorem exec_sqrt (d a : Nat) : exec (.sqrt d a) s = execSqrt d a s := rfl
theorem exec_ex2 (d a : Nat) : exec (.ex2 d a) s = execEx2 d a s := rfl
theorem exec_lg2 (d a : Nat) : exec (.lg2 d a) s = execLg2 d a s := rfl
theorem exec_sin (d a : Nat) : exec (.sin d a) s = execSin d a s := rfl
theorem exec_cos (d a : Nat) : exec (.cos d a) s = execCos d a s := rfl
theorem exec_tanh (d a : Nat) : exec (.tanh d a) s = execTanh d a s := rfl
theorem exec_sigm (d a : Nat) : exec (.sigm d a) s = execSigm d a s := rfl
theorem exec_tseed (d a f : Nat) : exec (.tseed d a f) s = execTseed d a f s := rfl
theorem exec_tget (d a f : Nat) : exec (.tget d a f) s = execTget d a f s := rfl
theorem exec_tset (d a f : Nat) : exec (.tset d a f) s = execTset d a f s := rfl
theorem exec_tclr (d : Nat) : exec (.tclr d) s = execTclr d s := rfl
theorem exec_tlin (d a b : Nat) : exec (.tlin d a b) s = execTlin d a b s := rfl
theorem exec_tfoot (d a b : Nat) : exec (.tfoot d a b) s = execTfoot d a b s := rfl
theorem exec_tflag (d a : Nat) : exec (.tflag d a) s = execTflag d a s := rfl
theorem exec_shfl (d a b f : Nat) : exec (.shfl d a b f) s = execShfl d a b f s := rfl
theorem exec_ballot (d a : Nat) : exec (.ballot d a) s = execBallot d a s := rfl
theorem exec_eqmask (d a : Nat) : exec (.eqmask d a) s = execEqmask d a s := rfl
theorem exec_redu (d a f : Nat) : exec (.redu d a f) s = execRedu d a f s := rfl
theorem exec_minidx (d a f : Nat) : exec (.minidx d a f) s = execMinidx d a f s := rfl
theorem exec_scan (d a b f : Nat) : exec (.scan d a b f) s = execScan d a b f s := rfl
theorem exec_welf (d a b : Nat) : exec (.welf d a b) s = execWelf d a b s := rfl
theorem exec_smxm (d a b : Nat) : exec (.smxm d a b) s = execSmxm d a b s := rfl
theorem exec_smxn (d a b f : Nat) : exec (.smxn d a b f) s = execSmxn d a b f s := rfl
theorem exec_ldU8 (d a k la : Nat) : exec (.ldU8 d a k la) s = execLdU8 d a k la s := rfl
theorem exec_ldS8 (d a k la : Nat) : exec (.ldS8 d a k la) s = execLdS8 d a k la s := rfl
theorem exec_ldU16 (d a k la : Nat) : exec (.ldU16 d a k la) s = execLdU16 d a k la s := rfl
theorem exec_ldS16 (d a k la : Nat) : exec (.ldS16 d a k la) s = execLdS16 d a k la s := rfl
theorem exec_ldB32 (d a k la : Nat) : exec (.ldB32 d a k la) s = execLdB32 d a k la s := rfl
theorem exec_ldB64 (d a k la : Nat) : exec (.ldB64 d a k la) s = execLdB64 d a k la s := rfl
theorem exec_ldB128 (d a k la : Nat) : exec (.ldB128 d a k la) s = execLdB128 d a k la s := rfl
theorem exec_stB8 (d a k la : Nat) : exec (.stB8 d a k la) s = execStB8 d a k la s := rfl
theorem exec_stB16 (d a k la : Nat) : exec (.stB16 d a k la) s = execStB16 d a k la s := rfl
theorem exec_stB32 (d a k la : Nat) : exec (.stB32 d a k la) s = execStB32 d a k la s := rfl
theorem exec_stB64 (d a k la : Nat) : exec (.stB64 d a k la) s = execStB64 d a k la s := rfl
theorem exec_stB128 (d a k la : Nat) : exec (.stB128 d a k la) s = execStB128 d a k la s := rfl
theorem exec_ldt (d a k la : Nat) : exec (.ldt d a k la) s = execLdt d a k la s := rfl
theorem exec_stt (d a k la : Nat) : exec (.stt d a k la) s = execStt d a k la s := rfl
theorem exec_prf (a k la : Nat) : exec (.prf a k la) s = execPrf a k la s := rfl
theorem exec_atom (d a k la : Nat) : exec (.atom d a k la) s = execAtom d a k la s := rfl
theorem exec_red (d a k la : Nat) : exec (.red d a k la) s = execRed d a k la s := rfl
theorem exec_fence (rel acq scope : Nat) : exec (.fence rel acq scope) s = execFence rel acq scope s := rfl
theorem exec_xfence (m : Nat) : exec (.xfence m) s = execXfence m s := rfl
theorem exec_waitp (a f : Nat) : exec (.waitp a f) s = execWaitp a f s := rfl
theorem exec_bar (a b : Nat) : exec (.bar a b) s = execBar a b s := rfl
theorem exec_bara (d a b : Nat) : exec (.bara d a b) s = execBara d a b s := rfl
theorem exec_barw (a b : Nat) : exec (.barw a b) s = execBarw a b s := rfl
theorem exec_cbwait (a b : Nat) : exec (.cbwait a b) s = execCbwait a b s := rfl
theorem exec_ldcb (a b : Nat) : exec (.ldcb a b) s = execLdcb a b s := rfl
theorem exec_marm (a k la : Nat) : exec (.marm a k la) s = execMarm a k la s := rfl
theorem exec_mwait (a : Nat) : exec (.mwait a) s = execMwait a s := rfl
theorem exec_txb (d : Nat) : exec (.txb d) s = execTxb d s := rfl
theorem exec_txa (tgt : Nat) : exec (.txa tgt) s = execTxa tgt s := rfl
theorem exec_skid (d h la : Nat) : exec (.skid d h la) s = execSkid d h la s := rfl
theorem exec_skidg (d h a la : Nat) : exec (.skidg d h a la) s = execSkidg d h a la s := rfl
theorem exec_kmma (d h a la : Nat) : exec (.kmma d h a la) s = execKmma d h a la s := rfl
theorem exec_kmmaPair (d h a la : Nat) : exec (.kmmaPair d h a la) s = execKmmaPair d h a la s := rfl
theorem exec_kdrn (d h a la : Nat) : exec (.kdrn d h a la) s = execKdrn d h a la s := rfl
theorem exec_kzero (d la : Nat) : exec (.kzero d la) s = execKzero d la s := rfl
theorem exec_kstat (d a la : Nat) : exec (.kstat d a la) s = execKstat d a la s := rfl
theorem exec_cruz (d h a la : Nat) : exec (.cruz d h a la) s = execCruz d h a la s := rfl
theorem exec_crget (d a la : Nat) : exec (.crget d a la) s = execCrget d a la s := rfl
theorem exec_crld (d h la : Nat) : exec (.crld d h la) s = execCrld d h la s := rfl
theorem exec_cnop (d a la : Nat) : exec (.cnop d a la) s = execCnop d a la s := rfl
theorem exec_cnad (d a la : Nat) : exec (.cnad d a la) s = execCnad d a la s := rfl
theorem exec_cnrd (d a la : Nat) : exec (.cnrd d a la) s = execCnrd d a la s := rfl
theorem exec_cncl (d a la : Nat) : exec (.cncl d a la) s = execCncl d a la s := rfl
theorem exec_cnaj (d h a la : Nat) : exec (.cnaj d h a la) s = execCnaj d h a la s := rfl
theorem exec_sortk (d h a la : Nat) : exec (.sortk d h a la) s = execSortk d h a la s := rfl
theorem exec_ralc (d h a la : Nat) : exec (.ralc d h a la) s = execRalc d h a la s := rfl
theorem exec_rcmt (h a la : Nat) : exec (.rcmt h a la) s = execRcmt h a la s := rfl
theorem exec_rget (d h la : Nat) : exec (.rget d h la) s = execRget d h la s := rfl
theorem exec_prim (h a la : Nat) : exec (.prim h a la) s = execPrim h a la s := rfl
theorem exec_tex (d h a la : Nat) : exec (.tex d h a la) s = execTex d h a la s := rfl
theorem exec_evIllegalWord (w : Nat) : exec (.evIllegalWord w) s = execEvIllegalWord w s := rfl
theorem exec_evMemoryAccessPerform (op : Nat) : exec (.evMemoryAccessPerform op) s = execEvMemoryAccessPerform op s := rfl
theorem exec_evLoadSectorReturn (op sector : Nat) : exec (.evLoadSectorReturn op sector) s = execEvLoadSectorReturn op sector s := rfl
theorem exec_evTranslationWalk (ctx va : Nat) : exec (.evTranslationWalk ctx va) s = execEvTranslationWalk ctx va s := rfl
theorem exec_evReleaseWindow (op : Nat) : exec (.evReleaseWindow op) s = execEvReleaseWindow op s := rfl
theorem exec_evKerfFetch (op : Nat) : exec (.evKerfFetch op) s = execEvKerfFetch op s := rfl
theorem exec_evKerfSlot (op : Nat) : exec (.evKerfSlot op) s = execEvKerfSlot op s := rfl
theorem exec_evKerfPromotion (op : Nat) : exec (.evKerfPromotion op) s = execEvKerfPromotion op s := rfl
theorem exec_evKdrnDrain (op : Nat) : exec (.evKdrnDrain op) s = execEvKdrnDrain op s := rfl
theorem exec_evKzeroClear (op : Nat) : exec (.evKzeroClear op) s = execEvKzeroClear op s := rfl
theorem exec_evKstatReport (op : Nat) : exec (.evKstatReport op) s = execEvKstatReport op s := rfl
theorem exec_evSkidderCopy (op : Nat) : exec (.evSkidderCopy op) s = execEvSkidderCopy op s := rfl
theorem exec_evCanopyLaneStep (op : Nat) : exec (.evCanopyLaneStep op) s = execEvCanopyLaneStep op s := rfl
theorem exec_uJmp (tgt : Nat) : exec (.uJmp tgt) s = execUJmp tgt s := rfl
theorem exec_uJz (c tgt imm : Nat) : exec (.uJz c tgt imm) s = execUJz c tgt imm s := rfl
theorem exec_uJnz (c tgt imm : Nat) : exec (.uJnz c tgt imm) s = execUJnz c tgt imm s := rfl
theorem exec_uLeaf (tgt imm : Nat) : exec (.uLeaf tgt imm) s = execULeaf tgt imm s := rfl
theorem exec_uHitc (c : Nat) : exec (.uHitc c) s = execUHitc c s := rfl
theorem exec_uSetf (imm : Nat) : exec (.uSetf imm) s = execUSetf imm s := rfl
theorem exec_uClrf (imm : Nat) : exec (.uClrf imm) s = execUClrf imm s := rfl
theorem exec_uCntr (c imm : Nat) : exec (.uCntr c imm) s = execUCntr c imm s := rfl
theorem exec_uFaultx (imm : Nat) : exec (.uFaultx imm) s = execUFaultx imm s := rfl
theorem exec_evRayTakeUp (core ctx : Nat) : exec (.evRayTakeUp core ctx) s = execEvRayTakeUp core ctx s := rfl
theorem exec_evRayDelivery (ray : Nat) : exec (.evRayDelivery ray) s = execEvRayDelivery ray s := rfl
theorem exec_evRasterSampleUpdate (op : Nat) : exec (.evRasterSampleUpdate op) s = execEvRasterSampleUpdate op s := rfl
theorem exec_evTextureReturn (op lane : Nat) : exec (.evTextureReturn op lane) s = execEvTextureReturn op lane s := rfl
theorem exec_evRalcServe (op : Nat) : exec (.evRalcServe op) s = execEvRalcServe op s := rfl
theorem exec_evRalcStallExpiry (op : Nat) : exec (.evRalcStallExpiry op) s = execEvRalcStallExpiry op s := rfl
theorem exec_evBatchTimeout (landing : Nat) : exec (.evBatchTimeout landing) s = execEvBatchTimeout landing s := rfl
theorem exec_evRecordReturn (team : Nat) : exec (.evRecordReturn team) s = execEvRecordReturn team s := rfl
theorem exec_evRscopePressure (core : Nat) : exec (.evRscopePressure core) s = execEvRscopePressure core s := rfl
theorem exec_evScopeServe (core : Nat) : exec (.evScopeServe core) s = execEvScopeServe core s := rfl
theorem exec_evYieldExpiry (gs : Nat) : exec (.evYieldExpiry gs) s = execEvYieldExpiry gs s := rfl
theorem exec_evWatchdog (gs : Nat) : exec (.evWatchdog gs) s = execEvWatchdog gs s := rfl
theorem exec_evFullSaveEscalation (gs : Nat) : exec (.evFullSaveEscalation gs) s = execEvFullSaveEscalation gs s := rfl
theorem exec_evTeamSave (team : Nat) : exec (.evTeamSave team) s = execEvTeamSave team s := rfl
theorem exec_evTeamRestore (team : Nat) : exec (.evTeamRestore team) s = execEvTeamRestore team s := rfl
theorem exec_evTeamPlacement (grid : Nat) : exec (.evTeamPlacement grid) s = execEvTeamPlacement grid s := rfl
theorem exec_evLaunchPacket (queue : Nat) : exec (.evLaunchPacket queue) s = execEvLaunchPacket queue s := rfl
theorem exec_evLaunchCompletion (grid : Nat) : exec (.evLaunchCompletion grid) s = execEvLaunchCompletion grid s := rfl
theorem exec_evLqbell (queue : Nat) : exec (.evLqbell queue) s = execEvLqbell queue s := rfl
theorem exec_evPreemptRequest (value : Nat) : exec (.evPreemptRequest value) s = execEvPreemptRequest value s := rfl
theorem exec_evPreemptCancel (value : Nat) : exec (.evPreemptCancel value) s = execEvPreemptCancel value s := rfl
theorem exec_evTkill (value : Nat) : exec (.evTkill value) s = execEvTkill value s := rfl
theorem exec_evFaultResponse (seq : Nat) : exec (.evFaultResponse seq) s = execEvFaultResponse seq s := rfl
theorem exec_evFaultResponseFail (seq : Nat) : exec (.evFaultResponseFail seq) s = execEvFaultResponseFail seq s := rfl
theorem exec_evFsetWrite (cluster value : Nat) : exec (.evFsetWrite cluster value) s = execEvFsetWrite cluster value s := rfl
theorem exec_evFrequencyChange (cluster : Nat) : exec (.evFrequencyChange cluster) s = execEvFrequencyChange cluster s := rfl
theorem exec_evScrub (addr kind : Nat) : exec (.evScrub addr kind) s = execEvScrub addr kind s := rfl
theorem exec_evCoreStateUncorrectable (gs pc src : Nat) : exec (.evCoreStateUncorrectable gs pc src) s = execEvCoreStateUncorrectable gs pc src s := rfl
theorem exec_evDieReady (die ok : Nat) : exec (.evDieReady die ok) s = execEvDieReady die ok s := rfl
theorem exec_evStackReady (stack ok : Nat) : exec (.evStackReady stack ok) s = execEvStackReady stack ok s := rfl
theorem exec_evPortReady (port ok : Nat) : exec (.evPortReady port ok) s = execEvPortReady port ok s := rfl
theorem exec_evFirmwareUpdate (ecdsa lms version : Nat) : exec (.evFirmwareUpdate ecdsa lms version) s = execEvFirmwareUpdate ecdsa lms version s := rfl
theorem exec_evPtpSync (offset : Nat) : exec (.evPtpSync offset) s = execEvPtpSync offset s := rfl
theorem exec_evPortDown (port : Nat) : exec (.evPortDown port) s = execEvPortDown port s := rfl
theorem exec_evHostCxlMemWrite (addr : Nat) (bytes : List Nat) : exec (.evHostCxlMemWrite addr bytes) s = execEvHostCxlMemWrite addr bytes s := rfl
theorem exec_evRegisterWrite (off value size : Nat) : exec (.evRegisterWrite off value size) s = execEvRegisterWrite off value size s := rfl
theorem exec_evIllegalMicroword (w : Nat) : exec (.evIllegalMicroword w) s = execEvIllegalMicroword w s := rfl
theorem exec_evPeerMemoryAccess (addr wr : Nat) (bytes : List Nat) : exec (.evPeerMemoryAccess addr wr bytes) s = execEvPeerMemoryAccess addr wr bytes s := rfl
theorem exec_nop : exec .nop s = execNop s := rfl
theorem exec_ret : exec .ret s = execRet s := rfl
theorem exec_exit : exec .exit s = execExit s := rfl
theorem exec_tret : exec .tret s = execTret s := rfl
theorem exec_yield : exec .yield s = execYield s := rfl
theorem exec_rsend : exec .rsend s = execRsend s := rfl
theorem exec_cbar : exec .cbar s = execCbar s := rfl
theorem exec_txc : exec .txc s = execTxc s := rfl
theorem exec_uNload : exec .uNload s = execUNload s := rfl
theorem exec_uBoxn : exec .uBoxn s = execUBoxn s := rfl
theorem exec_uTrin : exec .uTrin s = execUTrin s := rfl
theorem exec_uSphn : exec .uSphn s = execUSphn s := rfl
theorem exec_uOrdn : exec .uOrdn s = execUOrdn s := rfl
theorem exec_uPushn : exec .uPushn s = execUPushn s := rfl
theorem exec_uPopn : exec .uPopn s = execUPopn s := rfl
theorem exec_uNextp : exec .uNextp s = execUNextp s := rfl
theorem exec_uAnyh : exec .uAnyh s = execUAnyh s := rfl
theorem exec_uXfrm : exec .uXfrm s = execUXfrm s := rfl
theorem exec_uXret : exec .uXret s = execUXret s := rfl
theorem exec_uMiss : exec .uMiss s = execUMiss s := rfl
theorem exec_uDone : exec .uDone s = execUDone s := rfl
theorem exec_evPrcntRead : exec .evPrcntRead s = execEvPrcntRead s := rfl
theorem exec_evTlbInvalidateVa : exec .evTlbInvalidateVa s = execEvTlbInvalidateVa s := rfl
theorem exec_evTlbInvalidateContext : exec .evTlbInvalidateContext s = execEvTlbInvalidateContext s := rfl
theorem exec_evTlbInvalidateAll : exec .evTlbInvalidateAll s = execEvTlbInvalidateAll s := rfl
theorem exec_evTlbInvalidateDone : exec .evTlbInvalidateDone s = execEvTlbInvalidateDone s := rfl
theorem exec_evIcacheInvalidateVa : exec .evIcacheInvalidateVa s = execEvIcacheInvalidateVa s := rfl
theorem exec_evIcacheInvalidateContext : exec .evIcacheInvalidateContext s = execEvIcacheInvalidateContext s := rfl
theorem exec_evIcacheInvalidateAll : exec .evIcacheInvalidateAll s = execEvIcacheInvalidateAll s := rfl
theorem exec_evIcacheInvalidateDone : exec .evIcacheInvalidateDone s = execEvIcacheInvalidateDone s := rfl
theorem exec_evFaultQueueEntry : exec .evFaultQueueEntry s = execEvFaultQueueEntry s := rfl
theorem exec_evFaultQueueDisable : exec .evFaultQueueDisable s = execEvFaultQueueDisable s := rfl
theorem exec_evCecntClear : exec .evCecntClear s = execEvCecntClear s := rfl
theorem exec_evUecntClear : exec .evUecntClear s = execEvUecntClear s := rfl
theorem exec_evBudgetWindow : exec .evBudgetWindow s = execEvBudgetWindow s := rfl
theorem exec_evProtectiveTrip : exec .evProtectiveTrip s = execEvProtectiveTrip s := rfl
theorem exec_evDeviceReset : exec .evDeviceReset s = execEvDeviceReset s := rfl

end Sys2Proof.Machine
end

