-- ==== Sys2Proof/Laws/Issue.lean ====
section
/-!
SUPPORT. What the bookkeeping of an issue and an arrival at a join can do, said once: they leave every register and everything outside
the issuing group alone.
-/
namespace Sys2Proof.Machine

/-- What arrival at joins may change: the fragments and joins of the issuing group, and which of its fragments an operation belongs
to. -/
def Shifts (s t : State) : Prop :=
  t = { s with me := t.me, fr := t.fr, ops := t.ops } ∧ t.me.body = s.me.body ∧ t.ops.map Op.unowned = s.ops.map Op.unowned

theorem Shifts.refl (s : State) : Shifts s s := ⟨rfl, rfl, rfl⟩

theorem Shifts.trans {s t u : State} (h : Shifts s t) (k : Shifts t u) : Shifts s u := by
  exact ⟨k.1.trans (by rw [h.1]), k.2.1.trans h.2.1, k.2.2.trans h.2.2⟩

/-- The issuing group's fragments and joins rewritten, nothing else. -/
theorem Shifts.modMe {s : State} {f : Group → Group} (h : (f s.me).body = s.me.body) : Shifts s (s.modMe f) := ⟨rfl, h, rfl⟩

theorem Group.body_rejoin (g : Group) (f : Frag) : (g.rejoin f).body = g.body := by
  unfold Group.rejoin; split <;> rfl

theorem gather_shifts (s : State) : Shifts s s.gather := ⟨rfl, Group.body_rejoin _ _, rfl⟩

theorem startDeferred_shifts (s : State) (j : Join) (n : Nat) : Shifts s (s.startDeferred j n).1 := ⟨rfl, rfl, rfl⟩

theorem unowned_map (p : Op → Bool) (n : Nat) (l : List Op) :
    (l.map fun o => if p o then { o with frag := n } else o).map Op.unowned = l.map Op.unowned := by
  rw [List.map_map]
  congr 1
  funext o
  by_cases h : p o <;> simp [h, Op.unowned]

theorem mergeAt_shifts (s : State) (j : Join) (a : Addr) (fs : List Frag) : Shifts s (s.mergeAt j a fs).1 :=
  ⟨rfl, rfl, unowned_map (fun o => o.gs == s.me.gs && fs.any fun x => x.id == o.frag) s.me.nextFrag s.ops⟩

theorem settleJoin_shifts (s : State) (j : Join) : Shifts s (s.settleJoin j).1 := by
  simp only [State.settleJoin]
  split
  · exact .refl s
  · repeat' split
    all_goals first
      | exact .refl s
      | exact Shifts.modMe (f := fun g => g.dropJoin _) rfl
      | exact startDeferred_shifts ..
      | exact mergeAt_shifts ..

theorem waitAt_shifts (s : State) (id : Nat) (j : Join) (m : Mask) (a : Option Addr) : Shifts s (s.waitAt id j m a).1 :=
  Shifts.trans (Shifts.modMe rfl) (settleJoin_shifts _ _)

theorem arrive_shifts (n : Nat) (s : State) (id : Nat) : Shifts s (s.arrive id n) := by
  induction n generalizing s id with
  | zero => exact .refl s
  | succ n ih =>
    simp only [State.arrive]
    split
    · exact .refl s
    · split
      · exact .refl s
      · rename_i j _
        have w := waitAt_shifts s id j (Frag.owned ‹_›) none
        split <;> rename_i t o e <;> rw [e] at w
        · exact w.trans (ih _ _)
        · exact w

/-- Arrival at a join changes no register, and nothing outside the group. -/
theorem settleArrival_shifts (s : State) : Shifts s s.settleArrival := by
  unfold State.settleArrival
  split
  · exact (gather_shifts s).trans (arrive_shifts _ _ _)
  · exact .refl s

theorem settlePair_shifts (s : State) (c : Nat) : Shifts s (s.settlePair c) := by
  unfold State.settlePair
  simp only
  split
  · exact ((gather_shifts s).trans (arrive_shifts _ _ _)).trans (arrive_shifts _ _ _)
  · exact .refl s

/-- Arrival keeps what a frame speaks of, whatever register file it blots out. -/
theorem Frame.settle {erase : Group → Group} {s u : State} (h : Frame erase s u)
    (c : ∀ g h : Group, g.body = h.body → (erase g).body = (erase h).body) : Frame erase s u.settleArrival := by
  obtain ⟨⟨e, hg, ho⟩, hm⟩ := h
  have w := settleArrival_shifts u
  generalize u.settleArrival = t at *
  have g : t.groups = u.groups := by have e' := w.1; rw [e']
  exact ⟨⟨w.1.trans (by rw [g, e]), g ▸ hg, w.2.2.trans ho⟩, (c _ _ w.2.1).trans hm⟩

/-! ## The bookkeeping of an issue -/

theorem stamp_me (s : State) : s.stamp.me.body = s.me.body := rfl
@[simp] theorem stamp_vregs (s : State) : s.stamp.me.vregs = s.me.vregs := rfl
@[simp] theorem stamp_sregs (s : State) : s.stamp.me.sregs = s.me.sregs := rfl
@[simp] theorem stamp_preds (s : State) : s.stamp.me.preds = s.me.preds := rfl
@[simp] theorem stamp_qs (s : State) : s.stamp.me.qs = s.me.qs := rfl
@[simp] theorem stamp_tflags (s : State) : s.stamp.me.tflags = s.me.tflags := rfl
@[simp] theorem stamp_joins (s : State) : s.stamp.me.joins = s.me.joins := rfl
@[simp] theorem stamp_frags (s : State) : s.stamp.me.frags = s.me.frags := rfl
@[simp] theorem stamp_ov (s : State) : s.stamp.ov = s.ov := rfl
@[simp] theorem stamp_exec (s : State) : s.stamp.fr.exec = s.fr.exec := rfl
@[simp] theorem stamp_clr (s : State) : s.stamp.fr.clr = s.fr.clr := rfl
@[simp] theorem stamp_links (s : State) : s.stamp.fr.links = s.fr.links := rfl
@[simp] theorem stamp_mr (s : State) : s.stamp.mr = s.mr := rfl
@[simp] theorem stamp_pc (s : State) : s.stamp.pc = s.pc := rfl
@[simp] theorem stamp_d (s : State) : s.stamp.d = s.d := rfl
@[simp] theorem stamp_active (s : State) : s.stamp.active = s.active := rfl
@[simp] theorem stamp_rdS (s : State) (k : Nat) : s.stamp.rdS k = s.rdS k := rfl
@[simp] theorem stamp_rdS64 (s : State) (k : Nat) : s.stamp.rdS64 k = s.rdS64 k := rfl
@[simp] theorem stamp_rdP (s : State) (k : Nat) : s.stamp.rdP k = s.rdP k := rfl
@[simp] theorem stamp_rdQ (s : State) (k : Nat) : s.stamp.rdQ k = s.rdQ k := rfl
@[simp] theorem stamp_rdV (s : State) (r l : Nat) : s.stamp.rdV r l = s.rdV r l := rfl
@[simp] theorem stamp_rdVP (s : State) (r k l : Nat) : s.stamp.rdVP r k l = s.rdVP r k l := rfl
@[simp] theorem stamp_srcV (s : State) (r l : Nat) : s.stamp.srcV r l = s.srcV r l := rfl
@[simp] theorem stamp_srcP (s : State) (r k l : Nat) : s.stamp.srcP r k l = s.srcP r k l := rfl
@[simp] theorem stamp_carries (s : State) : s.stamp.carries = s.carries := rfl
@[simp] theorem stamp_memory (s : State) : s.stamp.memory = s.memory := rfl

theorem awake_map (p : Group → Bool) (l : List Group) :
    (l.map fun g => if p g then { g with yielded := none } else g).map Group.awake = l.map Group.awake := by
  rw [List.map_map]
  congr 1
  funext g
  by_cases h : p g <;> simp [h, Group.awake]

theorem stamp_groups (s : State) : s.stamp.groups.map Group.awake = s.groups.map Group.awake := by
  exact awake_map (fun g => g.yielded.isSome && coreOf g.gs == coreOf s.me.gs && g.gs % 128 == s.me.gs % 128) s.groups

/-- What an instruction comes to that writes registers of its group and goes on: the frame, in one place. -/
theorem simple_completes {i : Instr} {f : State → State} {s : State} {erase : Group → Group} {P : State → Prop}
    (h : Free i s) (e : exec i s = simple i f s)
    (c : ∀ g h : Group, g.body = h.body → (erase g).body = (erase h).body)
    (k : f s.stamp = { s.stamp with me := (f s.stamp).me }) (m : (erase (f s.stamp).me).body = (erase s.me).body)
    (p : ∀ t : State, t.me.body = (f s.stamp).me.body → P t) : Completes i s erase P := by
  have ov : (f s.stamp).ov = s.ov := by rw [k]; rfl
  have fr : (f s.stamp).fr = s.stamp.fr := by rw [k]
  have fw : Frame erase s (f s.stamp).advance := by
    have a : (f s.stamp).advance = { s.stamp with me := (f s.stamp).me, fr := (f s.stamp).advance.fr } := by
      unfold State.advance
      split <;> rw [k] <;> rfl
    refine ⟨⟨?_, ?_, ?_⟩, ?_⟩
    · rw [a]; rfl
    · rw [a]; exact stamp_groups s
    · rw [a]; rfl
    · rw [a]; exact m
  refine ⟨(f s.stamp).advance, ?_, ?_, fw.settle c, p _ ?_⟩
  · rw [e]
    simp only [simple, issue, h.1, h.2]
    rfl
  · have : (f s.stamp).advance.fr.pc = s.nextPc ∧
        (f s.stamp).advance.fr = { s.stamp.fr with pc := (f s.stamp).advance.fr.pc } := by
      unfold State.advance State.nextPc
      rw [ov]
      cases s.ov <;> simp only [State.modFr, fr] <;> first | exact ⟨rfl, rfl⟩ | exact ⟨rfl, trivial⟩
    unfold FragKept
    rw [this.2, this.1]
    rfl
  · have w := (settleArrival_shifts (f s.stamp).advance).2.1
    have : (f s.stamp).advance.me = (f s.stamp).me := by unfold State.advance; split <;> rfl
    rw [w, this]

/-! ## The issue gate -/

/-- What it means that nothing holds an instruction back: every wait is over and every check passes, in the order of R441. -/
theorem gate_go {s : State} {i : Instr} : s.gate i = .go ↔
    s.waitsFirst = false ∧ s.dueTrap = none ∧ s.dueBlocked = false ∧ s.siblingPending i = false ∧ s.txBroken i = false
    ∧ s.checksOk i = true ∧ s.lookahead i = none ∧ s.handleTrap i = none ∧ s.txForbids i = none ∧ s.waitsAfter i = false := by
  unfold State.gate
  cases s.waitsFirst <;> cases s.dueTrap <;> cases s.dueBlocked <;> cases s.siblingPending i <;> cases s.txBroken i <;>
    cases s.checksOk i <;> cases s.lookahead i <;> cases s.handleTrap i <;> cases s.txForbids i <;>
    cases s.waitsAfter i <;> simp

/-- The instruction's own effect, where nothing holds it back. -/
theorem issue_free {i : Instr} {f : State → Ran} {s t : State} (h : Free i s) (e : f s.stamp = .done t) :
    issue i f s = .next t.settleArrival := by
  simp [issue, h.1, h.2, e]

/-- An issue always answers a next state while a fragment is selected. -/
theorem issue_next {i : Instr} {f : State → Ran} {s : State} (h : s.live = true) : ∃ t, issue i f s = .next t := by
  unfold issue
  rw [h]
  simp only [Bool.not_true, Bool.false_eq_true, if_false]
  split
  · exact ⟨_, rfl⟩
  · exact ⟨_, rfl⟩
  · exact ⟨_, rfl⟩
  · split
    · split <;> exact ⟨_, rfl⟩
    · exact ⟨_, rfl⟩
  · exact ⟨_, rfl⟩
  · split <;> exact ⟨_, rfl⟩

end Sys2Proof.Machine
end

