-- ==== Sys2Proof/Laws/Kinds.lean ====
section
/-!
SUPPORT. Each instruction's meaning is an issue, a microword's step or an event, so that what these wrappers can do holds of every one:
a step always answers a next state.
-/
namespace Sys2Proof.Machine

/-- An instruction of the kernel issues. -/
theorem kernel_issues {i : Instr} (h : isKernel i = true) : ∀ s, ∃ f, exec i s = issue i f s := by
  cases i with
  | setm m => exact fun s => ⟨_, by rw [exec_setm]; unfold execSetm simple; rfl⟩
  | bra p n tgt rcv => exact fun s => ⟨_, by rw [exec_bra]; unfold execBra; rfl⟩
  | bru p n tgt rcv => exact fun s => ⟨_, by rw [exec_bru]; unfold execBru; rfl⟩
  | jmps a => exact fun s => ⟨_, by rw [exec_jmps]; unfold execJmps; rfl⟩
  | call p n tgt => exact fun s => ⟨_, by rw [exec_call]; unfold execCall; rfl⟩
  | calls a => exact fun s => ⟨_, by rw [exec_calls]; unfold execCalls; rfl⟩
  | sync rcv => exact fun s => ⟨_, by rw [exec_sync]; unfold execSync; rfl⟩
  | trap imm => exact fun s => ⟨_, by rw [exec_trap]; unfold execTrap; rfl⟩
  | ppt imm => exact fun s => ⟨_, by rw [exec_ppt]; unfold execPpt; rfl⟩
  | rscope imm => exact fun s => ⟨_, by rw [exec_rscope]; unfold execRscope; rfl⟩
  | execr d => exact fun s => ⟨_, by rw [exec_execr]; unfold execExecr simple; rfl⟩
  | execw a => exact fun s => ⟨_, by rw [exec_execw]; unfold execExecw; rfl⟩
  | sprr d imm => exact fun s => ⟨_, by rw [exec_sprr]; unfold execSprr simple; rfl⟩
  | sprw a imm => exact fun s => ⟨_, by rw [exec_sprw]; unfold execSprw simple; rfl⟩
  | clkr d => exact fun s => ⟨_, by rw [exec_clkr]; unfold execClkr simple; rfl⟩
  | ufirst d a => exact fun s => ⟨_, by rw [exec_ufirst]; unfold execUfirst simple; rfl⟩
  | uchk a => exact fun s => ⟨_, by rw [exec_uchk]; unfold execUchk; rfl⟩
  | ulane d a imm => exact fun s => ⟨_, by rw [exec_ulane]; unfold execUlane simple; rfl⟩
  | sadd d a b => exact fun s => ⟨_, by rw [exec_sadd]; unfold execSadd scalar2 simple; rfl⟩
  | ssub d a b => exact fun s => ⟨_, by rw [exec_ssub]; unfold execSsub scalar2 simple; rfl⟩
  | smul d a b => exact fun s => ⟨_, by rw [exec_smul]; unfold execSmul scalar2 simple; rfl⟩
  | sand d a b => exact fun s => ⟨_, by rw [exec_sand]; unfold execSand scalar2 simple; rfl⟩
  | sor d a b => exact fun s => ⟨_, by rw [exec_sor]; unfold execSor scalar2 simple; rfl⟩
  | sxor d a b => exact fun s => ⟨_, by rw [exec_sxor]; unfold execSxor scalar2 simple; rfl⟩
  | sshl d a b => exact fun s => ⟨_, by rw [exec_sshl]; unfold execSshl scalar2 simple; rfl⟩
  | sshr d a b => exact fun s => ⟨_, by rw [exec_sshr]; unfold execSshr scalar2 simple; rfl⟩
  | ssar d a b => exact fun s => ⟨_, by rw [exec_ssar]; unfold execSsar scalar2 simple; rfl⟩
  | smov d a => exact fun s => ⟨_, by rw [exec_smov]; unfold execSmov simple; rfl⟩
  | smulh d a b f => exact fun s => ⟨_, by rw [exec_smulh]; unfold execSmulh scalar2 simple; rfl⟩
  | smin d a b f => exact fun s => ⟨_, by rw [exec_smin]; unfold execSmin scalar2 simple; rfl⟩
  | smax d a b f => exact fun s => ⟨_, by rw [exec_smax]; unfold execSmax scalar2 simple; rfl⟩
  | scmp d a b f => exact fun s => ⟨_, by rw [exec_scmp]; unfold execScmp simple; rfl⟩
  | qop d a b f => exact fun s => ⟨_, by rw [exec_qop]; unfold execQop simple; rfl⟩
  | smovi d imm => exact fun s => ⟨_, by rw [exec_smovi]; unfold execSmovi simple; rfl⟩
  | smovh d imm => exact fun s => ⟨_, by rw [exec_smovh]; unfold execSmovh simple; rfl⟩
  | sld d a k la => exact fun s => ⟨_, by rw [exec_sld]; unfold execSld memory; rfl⟩
  | sst d a k la => exact fun s => ⟨_, by rw [exec_sst]; unfold execSst memory; rfl⟩
  | iadd d a b => exact fun s => ⟨_, by rw [exec_iadd]; unfold execIadd int2 simple; rfl⟩
  | isub d a b => exact fun s => ⟨_, by rw [exec_isub]; unfold execIsub int2 simple; rfl⟩
  | imul d a b => exact fun s => ⟨_, by rw [exec_imul]; unfold execImul int2 simple; rfl⟩
  | imulh d a b => exact fun s => ⟨_, by rw [exec_imulh]; unfold execImulh int2 simple; rfl⟩
  | imad d a b => exact fun s => ⟨_, by rw [exec_imad]; unfold execImad simple; rfl⟩
  | imin d a b => exact fun s => ⟨_, by rw [exec_imin]; unfold execImin int2 simple; rfl⟩
  | imax d a b => exact fun s => ⟨_, by rw [exec_imax]; unfold execImax int2 simple; rfl⟩
  | iabs d a => exact fun s => ⟨_, by rw [exec_iabs]; unfold execIabs simple; rfl⟩
  | vand d a b => exact fun s => ⟨_, by rw [exec_vand]; unfold execVand word2 simple; rfl⟩
  | vor d a b => exact fun s => ⟨_, by rw [exec_vor]; unfold execVor word2 simple; rfl⟩
  | vxor d a b => exact fun s => ⟨_, by rw [exec_vxor]; unfold execVxor word2 simple; rfl⟩
  | vandn d a b => exact fun s => ⟨_, by rw [exec_vandn]; unfold execVandn word2 simple; rfl⟩
  | shl d a b => exact fun s => ⟨_, by rw [exec_shl]; unfold execShl shiftLanes simple; rfl⟩
  | shr d a b => exact fun s => ⟨_, by rw [exec_shr]; unfold execShr shiftLanes simple; rfl⟩
  | sar d a b => exact fun s => ⟨_, by rw [exec_sar]; unfold execSar shiftLanes simple; rfl⟩
  | popc d a => exact fun s => ⟨_, by rw [exec_popc]; unfold execPopc word1 simple; rfl⟩
  | clz d a => exact fun s => ⟨_, by rw [exec_clz]; unfold execClz word1 simple; rfl⟩
  | brev d a => exact fun s => ⟨_, by rw [exec_brev]; unfold execBrev word1 simple; rfl⟩
  | bfe d a b => exact fun s => ⟨_, by rw [exec_bfe]; unfold execBfe word2 simple; rfl⟩
  | bfi d a b => exact fun s => ⟨_, by rw [exec_bfi]; unfold execBfi simple; rfl⟩
  | icmp d a b f => exact fun s => ⟨_, by rw [exec_icmp]; unfold execIcmp simple; rfl⟩
  | sel d a b f => exact fun s => ⟨_, by rw [exec_sel]; unfold execSel moveLanes simple; rfl⟩
  | mov d a => exact fun s => ⟨_, by rw [exec_mov]; unfold execMov moveLanes simple; rfl⟩
  | movi d imm => exact fun s => ⟨_, by rw [exec_movi]; unfold execMovi simple; rfl⟩
  | lea d a b f => exact fun s => ⟨_, by rw [exec_lea]; unfold execLea word2 simple; rfl⟩
  | plop d a b f => exact fun s => ⟨_, by rw [exec_plop]; unfold execPlop simple; rfl⟩
  | iaddImm d a imm => exact fun s => ⟨_, by rw [exec_iaddImm]; unfold execIaddImm simple; rfl⟩
  | andImm d a imm => exact fun s => ⟨_, by rw [exec_andImm]; unfold execAndImm word1 simple; rfl⟩
  | orImm d a imm => exact fun s => ⟨_, by rw [exec_orImm]; unfold execOrImm word1 simple; rfl⟩
  | shlImm d a imm => exact fun s => ⟨_, by rw [exec_shlImm]; unfold execShlImm shiftImm simple; rfl⟩
  | shrImm d a imm => exact fun s => ⟨_, by rw [exec_shrImm]; unfold execShrImm shiftImm simple; rfl⟩
  | sarImm d a imm => exact fun s => ⟨_, by rw [exec_sarImm]; unfold execSarImm shiftImm simple; rfl⟩
  | fadd d a b => exact fun s => ⟨_, by rw [exec_fadd]; unfold execFadd float2 simple; rfl⟩
  | fsub d a b => exact fun s => ⟨_, by rw [exec_fsub]; unfold execFsub float2 simple; rfl⟩
  | fmul d a b => exact fun s => ⟨_, by rw [exec_fmul]; unfold execFmul float2 simple; rfl⟩
  | ffma d a b => exact fun s => ⟨_, by rw [exec_ffma]; unfold execFfma simple; rfl⟩
  | fmin d a b => exact fun s => ⟨_, by rw [exec_fmin]; unfold execFmin float2 simple; rfl⟩
  | fmax d a b => exact fun s => ⟨_, by rw [exec_fmax]; unfold execFmax float2 simple; rfl⟩
  | fabs d a => exact fun s => ⟨_, by rw [exec_fabs]; unfold execFabs float1 simple; rfl⟩
  | fneg d a => exact fun s => ⟨_, by rw [exec_fneg]; unfold execFneg float1 simple; rfl⟩
  | fcmp d a b f => exact fun s => ⟨_, by rw [exec_fcmp]; unfold execFcmp simple; rfl⟩
  | fcvt d a b => exact fun s => ⟨_, by rw [exec_fcvt]; unfold execFcvt simple; rfl⟩
  | frint d a => exact fun s => ⟨_, by rw [exec_frint]; unfold execFrint float1 simple; rfl⟩
  | fclass d a => exact fun s => ⟨_, by rw [exec_fclass]; unfold execFclass simple; rfl⟩
  | fsat d a => exact fun s => ⟨_, by rw [exec_fsat]; unfold execFsat float1 simple; rfl⟩
  | rcp d a => exact fun s => ⟨_, by rw [exec_rcp]; unfold execRcp float1 simple; rfl⟩
  | rsq d a => exact fun s => ⟨_, by rw [exec_rsq]; unfold execRsq float1 simple; rfl⟩
  | sqrt d a => exact fun s => ⟨_, by rw [exec_sqrt]; unfold execSqrt float1 simple; rfl⟩
  | ex2 d a => exact fun s => ⟨_, by rw [exec_ex2]; unfold execEx2 float1 simple; rfl⟩
  | lg2 d a => exact fun s => ⟨_, by rw [exec_lg2]; unfold execLg2 float1 simple; rfl⟩
  | sin d a => exact fun s => ⟨_, by rw [exec_sin]; unfold execSin float1 simple; rfl⟩
  | cos d a => exact fun s => ⟨_, by rw [exec_cos]; unfold execCos float1 simple; rfl⟩
  | tanh d a => exact fun s => ⟨_, by rw [exec_tanh]; unfold execTanh float1 simple; rfl⟩
  | sigm d a => exact fun s => ⟨_, by rw [exec_sigm]; unfold execSigm float1 simple; rfl⟩
  | tseed d a f => exact fun s => ⟨_, by rw [exec_tseed]; unfold execTseed simple; rfl⟩
  | tget d a f => exact fun s => ⟨_, by rw [exec_tget]; unfold execTget simple; rfl⟩
  | tset d a f => exact fun s => ⟨_, by rw [exec_tset]; unfold execTset simple; rfl⟩
  | tclr d => exact fun s => ⟨_, by rw [exec_tclr]; unfold execTclr simple; rfl⟩
  | tlin d a b => exact fun s => ⟨_, by rw [exec_tlin]; unfold execTlin simple; rfl⟩
  | tfoot d a b => exact fun s => ⟨_, by rw [exec_tfoot]; unfold execTfoot simple; rfl⟩
  | tflag d a => exact fun s => ⟨_, by rw [exec_tflag]; unfold execTflag simple; rfl⟩
  | shfl d a b f => exact fun s => ⟨_, by rw [exec_shfl]; unfold execShfl simple; rfl⟩
  | ballot d a => exact fun s => ⟨_, by rw [exec_ballot]; unfold execBallot simple; rfl⟩
  | eqmask d a => exact fun s => ⟨_, by rw [exec_eqmask]; unfold execEqmask simple; rfl⟩
  | redu d a f => exact fun s => ⟨_, by rw [exec_redu]; unfold execRedu simple; rfl⟩
  | minidx d a f => exact fun s => ⟨_, by rw [exec_minidx]; unfold execMinidx simple; rfl⟩
  | scan d a b f => exact fun s => ⟨_, by rw [exec_scan]; unfold execScan simple; rfl⟩
  | welf d a b => exact fun s => ⟨_, by rw [exec_welf]; unfold execWelf simple; rfl⟩
  | smxm d a b => exact fun s => ⟨_, by rw [exec_smxm]; unfold execSmxm simple; rfl⟩
  | smxn d a b f => exact fun s => ⟨_, by rw [exec_smxn]; unfold execSmxn simple; rfl⟩
  | ldU8 d a k la => exact fun s => ⟨_, by rw [exec_ldU8]; unfold execLdU8 memory; rfl⟩
  | ldS8 d a k la => exact fun s => ⟨_, by rw [exec_ldS8]; unfold execLdS8 memory; rfl⟩
  | ldU16 d a k la => exact fun s => ⟨_, by rw [exec_ldU16]; unfold execLdU16 memory; rfl⟩
  | ldS16 d a k la => exact fun s => ⟨_, by rw [exec_ldS16]; unfold execLdS16 memory; rfl⟩
  | ldB32 d a k la => exact fun s => ⟨_, by rw [exec_ldB32]; unfold execLdB32 memory; rfl⟩
  | ldB64 d a k la => exact fun s => ⟨_, by rw [exec_ldB64]; unfold execLdB64 memory; rfl⟩
  | ldB128 d a k la => exact fun s => ⟨_, by rw [exec_ldB128]; unfold execLdB128 memory; rfl⟩
  | stB8 d a k la => exact fun s => ⟨_, by rw [exec_stB8]; unfold execStB8 memory; rfl⟩
  | stB16 d a k la => exact fun s => ⟨_, by rw [exec_stB16]; unfold execStB16 memory; rfl⟩
  | stB32 d a k la => exact fun s => ⟨_, by rw [exec_stB32]; unfold execStB32 memory; rfl⟩
  | stB64 d a k la => exact fun s => ⟨_, by rw [exec_stB64]; unfold execStB64 memory; rfl⟩
  | stB128 d a k la => exact fun s => ⟨_, by rw [exec_stB128]; unfold execStB128 memory; rfl⟩
  | ldt d a k la => exact fun s => ⟨_, by rw [exec_ldt]; unfold execLdt memory; rfl⟩
  | stt d a k la => exact fun s => ⟨_, by rw [exec_stt]; unfold execStt memory; rfl⟩
  | prf a k la => exact fun s => ⟨_, by rw [exec_prf]; unfold execPrf; rfl⟩
  | atom d a k la => exact fun s => ⟨_, by rw [exec_atom]; unfold execAtom memory; rfl⟩
  | red d a k la => exact fun s => ⟨_, by rw [exec_red]; unfold execRed memory; rfl⟩
  | fence rel acq scope => exact fun s => ⟨_, by rw [exec_fence]; unfold execFence; rfl⟩
  | xfence m => exact fun s => ⟨_, by rw [exec_xfence]; unfold execXfence; rfl⟩
  | waitp a f => exact fun s => ⟨_, by rw [exec_waitp]; unfold execWaitp; rfl⟩
  | bar a b => exact fun s => ⟨_, by rw [exec_bar]; unfold execBar; rfl⟩
  | bara d a b => exact fun s => ⟨_, by rw [exec_bara]; unfold execBara; rfl⟩
  | barw a b => exact fun s => ⟨_, by rw [exec_barw]; unfold execBarw; rfl⟩
  | cbwait a b => exact fun s => ⟨_, by rw [exec_cbwait]; unfold execCbwait; rfl⟩
  | ldcb a b => exact fun s => ⟨_, by rw [exec_ldcb]; unfold execLdcb; rfl⟩
  | marm a k la => exact fun s => ⟨_, by rw [exec_marm]; unfold execMarm; rfl⟩
  | mwait a => exact fun s => ⟨_, by rw [exec_mwait]; unfold execMwait; rfl⟩
  | txb d => exact fun s => ⟨_, by rw [exec_txb]; unfold execTxb; rfl⟩
  | txa tgt => exact fun s => ⟨_, by rw [exec_txa]; unfold execTxa; rfl⟩
  | skid d h la => exact fun s => ⟨_, by rw [exec_skid]; unfold execSkid; rfl⟩
  | skidg d h a la => exact fun s => ⟨_, by rw [exec_skidg]; unfold execSkidg; rfl⟩
  | kmma d h a la => exact fun s => ⟨_, by rw [exec_kmma]; unfold execKmma; rfl⟩
  | kmmaPair d h a la => exact fun s => ⟨_, by rw [exec_kmmaPair]; unfold execKmmaPair; rfl⟩
  | kdrn d h a la => exact fun s => ⟨_, by rw [exec_kdrn]; unfold execKdrn; rfl⟩
  | kzero d la => exact fun s => ⟨_, by rw [exec_kzero]; unfold execKzero; rfl⟩
  | kstat d a la => exact fun s => ⟨_, by rw [exec_kstat]; unfold execKstat; rfl⟩
  | cruz d h a la => exact fun s => ⟨_, by rw [exec_cruz]; unfold execCruz; rfl⟩
  | crget d a la => exact fun s => ⟨_, by rw [exec_crget]; unfold execCrget; rfl⟩
  | crld d h la => exact fun s => ⟨_, by rw [exec_crld]; unfold execCrld; rfl⟩
  | cnop d a la => exact fun s => ⟨_, by rw [exec_cnop]; unfold execCnop canopy; rfl⟩
  | cnad d a la => exact fun s => ⟨_, by rw [exec_cnad]; unfold execCnad canopy; rfl⟩
  | cnrd d a la => exact fun s => ⟨_, by rw [exec_cnrd]; unfold execCnrd canopy; rfl⟩
  | cncl d a la => exact fun s => ⟨_, by rw [exec_cncl]; unfold execCncl canopy; rfl⟩
  | cnaj d h a la => exact fun s => ⟨_, by rw [exec_cnaj]; unfold execCnaj canopy; rfl⟩
  | sortk d h a la => exact fun s => ⟨_, by rw [exec_sortk]; unfold execSortk; rfl⟩
  | ralc d h a la => exact fun s => ⟨_, by rw [exec_ralc]; unfold execRalc; rfl⟩
  | rcmt h a la => exact fun s => ⟨_, by rw [exec_rcmt]; unfold execRcmt; rfl⟩
  | rget d h la => exact fun s => ⟨_, by rw [exec_rget]; unfold execRget; rfl⟩
  | prim h a la => exact fun s => ⟨_, by rw [exec_prim]; unfold execPrim; rfl⟩
  | tex d h a la => exact fun s => ⟨_, by rw [exec_tex]; unfold execTex; rfl⟩
  | evIllegalWord w => exact fun s => ⟨_, by rw [exec_evIllegalWord]; unfold execEvIllegalWord; rfl⟩
  | evMemoryAccessPerform _ => exact nomatch h
  | evLoadSectorReturn _ _ => exact nomatch h
  | evTranslationWalk _ _ => exact nomatch h
  | evReleaseWindow _ => exact nomatch h
  | evKerfFetch _ => exact nomatch h
  | evKerfSlot _ => exact nomatch h
  | evKerfPromotion _ => exact nomatch h
  | evKdrnDrain _ => exact nomatch h
  | evKzeroClear _ => exact nomatch h
  | evKstatReport _ => exact nomatch h
  | evSkidderCopy _ => exact nomatch h
  | evCanopyLaneStep _ => exact nomatch h
  | uJmp _ => exact nomatch h
  | uJz _ _ _ => exact nomatch h
  | uJnz _ _ _ => exact nomatch h
  | uLeaf _ _ => exact nomatch h
  | uHitc _ => exact nomatch h
  | uSetf _ => exact nomatch h
  | uClrf _ => exact nomatch h
  | uCntr _ _ => exact nomatch h
  | uFaultx _ => exact nomatch h
  | evRayTakeUp _ _ => exact nomatch h
  | evRayDelivery _ => exact nomatch h
  | evRasterSampleUpdate _ => exact nomatch h
  | evTextureReturn _ _ => exact nomatch h
  | evRalcServe _ => exact nomatch h
  | evRalcStallExpiry _ => exact nomatch h
  | evBatchTimeout _ => exact nomatch h
  | evRecordReturn _ => exact nomatch h
  | evRscopePressure _ => exact nomatch h
  | evScopeServe _ => exact nomatch h
  | evYieldExpiry _ => exact nomatch h
  | evWatchdog _ => exact nomatch h
  | evFullSaveEscalation _ => exact nomatch h
  | evTeamSave _ => exact nomatch h
  | evTeamRestore _ => exact nomatch h
  | evTeamPlacement _ => exact nomatch h
  | evLaunchPacket _ => exact nomatch h
  | evLaunchCompletion _ => exact nomatch h
  | evLqbell _ => exact nomatch h
  | evPreemptRequest _ => exact nomatch h
  | evPreemptCancel _ => exact nomatch h
  | evTkill _ => exact nomatch h
  | evFaultResponse _ => exact nomatch h
  | evFaultResponseFail _ => exact nomatch h
  | evFsetWrite _ _ => exact nomatch h
  | evFrequencyChange _ => exact nomatch h
  | evScrub _ _ => exact nomatch h
  | evCoreStateUncorrectable _ _ _ => exact nomatch h
  | evDieReady _ _ => exact nomatch h
  | evStackReady _ _ => exact nomatch h
  | evPortReady _ _ => exact nomatch h
  | evFirmwareUpdate _ _ _ => exact nomatch h
  | evPtpSync _ => exact nomatch h
  | evPortDown _ => exact nomatch h
  | evHostCxlMemWrite _ _ => exact nomatch h
  | evRegisterWrite _ _ _ => exact nomatch h
  | evIllegalMicroword _ => exact nomatch h
  | evPeerMemoryAccess _ _ _ => exact nomatch h
  | nop => exact fun s => ⟨_, by rw [exec_nop]; unfold execNop simple; rfl⟩
  | ret => exact fun s => ⟨_, by rw [exec_ret]; unfold execRet; rfl⟩
  | exit => exact fun s => ⟨_, by rw [exec_exit]; unfold execExit; rfl⟩
  | tret => exact fun s => ⟨_, by rw [exec_tret]; unfold execTret; rfl⟩
  | yield => exact fun s => ⟨_, by rw [exec_yield]; unfold execYield simple; rfl⟩
  | rsend => exact fun s => ⟨_, by rw [exec_rsend]; unfold execRsend; rfl⟩
  | cbar => exact fun s => ⟨_, by rw [exec_cbar]; unfold execCbar; rfl⟩
  | txc => exact fun s => ⟨_, by rw [exec_txc]; unfold execTxc; rfl⟩
  | uNload => exact nomatch h
  | uBoxn => exact nomatch h
  | uTrin => exact nomatch h
  | uSphn => exact nomatch h
  | uOrdn => exact nomatch h
  | uPushn => exact nomatch h
  | uPopn => exact nomatch h
  | uNextp => exact nomatch h
  | uAnyh => exact nomatch h
  | uXfrm => exact nomatch h
  | uXret => exact nomatch h
  | uMiss => exact nomatch h
  | uDone => exact nomatch h
  | evPrcntRead => exact nomatch h
  | evTlbInvalidateVa => exact nomatch h
  | evTlbInvalidateContext => exact nomatch h
  | evTlbInvalidateAll => exact nomatch h
  | evTlbInvalidateDone => exact nomatch h
  | evIcacheInvalidateVa => exact nomatch h
  | evIcacheInvalidateContext => exact nomatch h
  | evIcacheInvalidateAll => exact nomatch h
  | evIcacheInvalidateDone => exact nomatch h
  | evFaultQueueEntry => exact nomatch h
  | evFaultQueueDisable => exact nomatch h
  | evCecntClear => exact nomatch h
  | evUecntClear => exact nomatch h
  | evBudgetWindow => exact nomatch h
  | evProtectiveTrip => exact nomatch h
  | evDeviceReset => exact nomatch h

/-- A microword performs on the selected ray. -/
theorem micro_performs {i : Instr} (h : isMicro i = true) : ∀ s, ∃ f, exec i s = micro i f s := by
  cases i with
  | setm _ => exact nomatch h
  | bra _ _ _ _ => exact nomatch h
  | bru _ _ _ _ => exact nomatch h
  | jmps _ => exact nomatch h
  | call _ _ _ => exact nomatch h
  | calls _ => exact nomatch h
  | sync _ => exact nomatch h
  | trap _ => exact nomatch h
  | ppt _ => exact nomatch h
  | rscope _ => exact nomatch h
  | execr _ => exact nomatch h
  | execw _ => exact nomatch h
  | sprr _ _ => exact nomatch h
  | sprw _ _ => exact nomatch h
  | clkr _ => exact nomatch h
  | ufirst _ _ => exact nomatch h
  | uchk _ => exact nomatch h
  | ulane _ _ _ => exact nomatch h
  | sadd _ _ _ => exact nomatch h
  | ssub _ _ _ => exact nomatch h
  | smul _ _ _ => exact nomatch h
  | sand _ _ _ => exact nomatch h
  | sor _ _ _ => exact nomatch h
  | sxor _ _ _ => exact nomatch h
  | sshl _ _ _ => exact nomatch h
  | sshr _ _ _ => exact nomatch h
  | ssar _ _ _ => exact nomatch h
  | smov _ _ => exact nomatch h
  | smulh _ _ _ _ => exact nomatch h
  | smin _ _ _ _ => exact nomatch h
  | smax _ _ _ _ => exact nomatch h
  | scmp _ _ _ _ => exact nomatch h
  | qop _ _ _ _ => exact nomatch h
  | smovi _ _ => exact nomatch h
  | smovh _ _ => exact nomatch h
  | sld _ _ _ _ => exact nomatch h
  | sst _ _ _ _ => exact nomatch h
  | iadd _ _ _ => exact nomatch h
  | isub _ _ _ => exact nomatch h
  | imul _ _ _ => exact nomatch h
  | imulh _ _ _ => exact nomatch h
  | imad _ _ _ => exact nomatch h
  | imin _ _ _ => exact nomatch h
  | imax _ _ _ => exact nomatch h
  | iabs _ _ => exact nomatch h
  | vand _ _ _ => exact nomatch h
  | vor _ _ _ => exact nomatch h
  | vxor _ _ _ => exact nomatch h
  | vandn _ _ _ => exact nomatch h
  | shl _ _ _ => exact nomatch h
  | shr _ _ _ => exact nomatch h
  | sar _ _ _ => exact nomatch h
  | popc _ _ => exact nomatch h
  | clz _ _ => exact nomatch h
  | brev _ _ => exact nomatch h
  | bfe _ _ _ => exact nomatch h
  | bfi _ _ _ => exact nomatch h
  | icmp _ _ _ _ => exact nomatch h
  | sel _ _ _ _ => exact nomatch h
  | mov _ _ => exact nomatch h
  | movi _ _ => exact nomatch h
  | lea _ _ _ _ => exact nomatch h
  | plop _ _ _ _ => exact nomatch h
  | iaddImm _ _ _ => exact nomatch h
  | andImm _ _ _ => exact nomatch h
  | orImm _ _ _ => exact nomatch h
  | shlImm _ _ _ => exact nomatch h
  | shrImm _ _ _ => exact nomatch h
  | sarImm _ _ _ => exact nomatch h
  | fadd _ _ _ => exact nomatch h
  | fsub _ _ _ => exact nomatch h
  | fmul _ _ _ => exact nomatch h
  | ffma _ _ _ => exact nomatch h
  | fmin _ _ _ => exact nomatch h
  | fmax _ _ _ => exact nomatch h
  | fabs _ _ => exact nomatch h
  | fneg _ _ => exact nomatch h
  | fcmp _ _ _ _ => exact nomatch h
  | fcvt _ _ _ => exact nomatch h
  | frint _ _ => exact nomatch h
  | fclass _ _ => exact nomatch h
  | fsat _ _ => exact nomatch h
  | rcp _ _ => exact nomatch h
  | rsq _ _ => exact nomatch h
  | sqrt _ _ => exact nomatch h
  | ex2 _ _ => exact nomatch h
  | lg2 _ _ => exact nomatch h
  | sin _ _ => exact nomatch h
  | cos _ _ => exact nomatch h
  | tanh _ _ => exact nomatch h
  | sigm _ _ => exact nomatch h
  | tseed _ _ _ => exact nomatch h
  | tget _ _ _ => exact nomatch h
  | tset _ _ _ => exact nomatch h
  | tclr _ => exact nomatch h
  | tlin _ _ _ => exact nomatch h
  | tfoot _ _ _ => exact nomatch h
  | tflag _ _ => exact nomatch h
  | shfl _ _ _ _ => exact nomatch h
  | ballot _ _ => exact nomatch h
  | eqmask _ _ => exact nomatch h
  | redu _ _ _ => exact nomatch h
  | minidx _ _ _ => exact nomatch h
  | scan _ _ _ _ => exact nomatch h
  | welf _ _ _ => exact nomatch h
  | smxm _ _ _ => exact nomatch h
  | smxn _ _ _ _ => exact nomatch h
  | ldU8 _ _ _ _ => exact nomatch h
  | ldS8 _ _ _ _ => exact nomatch h
  | ldU16 _ _ _ _ => exact nomatch h
  | ldS16 _ _ _ _ => exact nomatch h
  | ldB32 _ _ _ _ => exact nomatch h
  | ldB64 _ _ _ _ => exact nomatch h
  | ldB128 _ _ _ _ => exact nomatch h
  | stB8 _ _ _ _ => exact nomatch h
  | stB16 _ _ _ _ => exact nomatch h
  | stB32 _ _ _ _ => exact nomatch h
  | stB64 _ _ _ _ => exact nomatch h
  | stB128 _ _ _ _ => exact nomatch h
  | ldt _ _ _ _ => exact nomatch h
  | stt _ _ _ _ => exact nomatch h
  | prf _ _ _ => exact nomatch h
  | atom _ _ _ _ => exact nomatch h
  | red _ _ _ _ => exact nomatch h
  | fence _ _ _ => exact nomatch h
  | xfence _ => exact nomatch h
  | waitp _ _ => exact nomatch h
  | bar _ _ => exact nomatch h
  | bara _ _ _ => exact nomatch h
  | barw _ _ => exact nomatch h
  | cbwait _ _ => exact nomatch h
  | ldcb _ _ => exact nomatch h
  | marm _ _ _ => exact nomatch h
  | mwait _ => exact nomatch h
  | txb _ => exact nomatch h
  | txa _ => exact nomatch h
  | skid _ _ _ => exact nomatch h
  | skidg _ _ _ _ => exact nomatch h
  | kmma _ _ _ _ => exact nomatch h
  | kmmaPair _ _ _ _ => exact nomatch h
  | kdrn _ _ _ _ => exact nomatch h
  | kzero _ _ => exact nomatch h
  | kstat _ _ _ => exact nomatch h
  | cruz _ _ _ _ => exact nomatch h
  | crget _ _ _ => exact nomatch h
  | crld _ _ _ => exact nomatch h
  | cnop _ _ _ => exact nomatch h
  | cnad _ _ _ => exact nomatch h
  | cnrd _ _ _ => exact nomatch h
  | cncl _ _ _ => exact nomatch h
  | cnaj _ _ _ _ => exact nomatch h
  | sortk _ _ _ _ => exact nomatch h
  | ralc _ _ _ _ => exact nomatch h
  | rcmt _ _ _ => exact nomatch h
  | rget _ _ _ => exact nomatch h
  | prim _ _ _ => exact nomatch h
  | tex _ _ _ _ => exact nomatch h
  | evIllegalWord _ => exact nomatch h
  | evMemoryAccessPerform _ => exact nomatch h
  | evLoadSectorReturn _ _ => exact nomatch h
  | evTranslationWalk _ _ => exact nomatch h
  | evReleaseWindow _ => exact nomatch h
  | evKerfFetch _ => exact nomatch h
  | evKerfSlot _ => exact nomatch h
  | evKerfPromotion _ => exact nomatch h
  | evKdrnDrain _ => exact nomatch h
  | evKzeroClear _ => exact nomatch h
  | evKstatReport _ => exact nomatch h
  | evSkidderCopy _ => exact nomatch h
  | evCanopyLaneStep _ => exact nomatch h
  | uJmp tgt => exact fun s => ⟨_, by rw [exec_uJmp]; unfold execUJmp; rfl⟩
  | uJz c tgt imm => exact fun s => ⟨_, by rw [exec_uJz]; unfold execUJz; rfl⟩
  | uJnz c tgt imm => exact fun s => ⟨_, by rw [exec_uJnz]; unfold execUJnz; rfl⟩
  | uLeaf tgt imm => exact fun s => ⟨_, by rw [exec_uLeaf]; unfold execULeaf; rfl⟩
  | uHitc c => exact fun s => ⟨_, by rw [exec_uHitc]; unfold execUHitc; rfl⟩
  | uSetf imm => exact fun s => ⟨_, by rw [exec_uSetf]; unfold execUSetf; rfl⟩
  | uClrf imm => exact fun s => ⟨_, by rw [exec_uClrf]; unfold execUClrf; rfl⟩
  | uCntr c imm => exact fun s => ⟨_, by rw [exec_uCntr]; unfold execUCntr; rfl⟩
  | uFaultx imm => exact fun s => ⟨_, by rw [exec_uFaultx]; unfold execUFaultx; rfl⟩
  | evRayTakeUp _ _ => exact nomatch h
  | evRayDelivery _ => exact nomatch h
  | evRasterSampleUpdate _ => exact nomatch h
  | evTextureReturn _ _ => exact nomatch h
  | evRalcServe _ => exact nomatch h
  | evRalcStallExpiry _ => exact nomatch h
  | evBatchTimeout _ => exact nomatch h
  | evRecordReturn _ => exact nomatch h
  | evRscopePressure _ => exact nomatch h
  | evScopeServe _ => exact nomatch h
  | evYieldExpiry _ => exact nomatch h
  | evWatchdog _ => exact nomatch h
  | evFullSaveEscalation _ => exact nomatch h
  | evTeamSave _ => exact nomatch h
  | evTeamRestore _ => exact nomatch h
  | evTeamPlacement _ => exact nomatch h
  | evLaunchPacket _ => exact nomatch h
  | evLaunchCompletion _ => exact nomatch h
  | evLqbell _ => exact nomatch h
  | evPreemptRequest _ => exact nomatch h
  | evPreemptCancel _ => exact nomatch h
  | evTkill _ => exact nomatch h
  | evFaultResponse _ => exact nomatch h
  | evFaultResponseFail _ => exact nomatch h
  | evFsetWrite _ _ => exact nomatch h
  | evFrequencyChange _ => exact nomatch h
  | evScrub _ _ => exact nomatch h
  | evCoreStateUncorrectable _ _ _ => exact nomatch h
  | evDieReady _ _ => exact nomatch h
  | evStackReady _ _ => exact nomatch h
  | evPortReady _ _ => exact nomatch h
  | evFirmwareUpdate _ _ _ => exact nomatch h
  | evPtpSync _ => exact nomatch h
  | evPortDown _ => exact nomatch h
  | evHostCxlMemWrite _ _ => exact nomatch h
  | evRegisterWrite _ _ _ => exact nomatch h
  | evIllegalMicroword w => exact fun s => ⟨_, by rw [exec_evIllegalMicroword]; unfold execEvIllegalMicroword; rfl⟩
  | evPeerMemoryAccess _ _ _ => exact nomatch h
  | nop => exact nomatch h
  | ret => exact nomatch h
  | exit => exact nomatch h
  | tret => exact nomatch h
  | yield => exact nomatch h
  | rsend => exact nomatch h
  | cbar => exact nomatch h
  | txc => exact nomatch h
  | uNload => exact fun s => ⟨_, by rw [exec_uNload]; unfold execUNload; rfl⟩
  | uBoxn => exact fun s => ⟨_, by rw [exec_uBoxn]; unfold execUBoxn; rfl⟩
  | uTrin => exact fun s => ⟨_, by rw [exec_uTrin]; unfold execUTrin; rfl⟩
  | uSphn => exact fun s => ⟨_, by rw [exec_uSphn]; unfold execUSphn; rfl⟩
  | uOrdn => exact fun s => ⟨_, by rw [exec_uOrdn]; unfold execUOrdn; rfl⟩
  | uPushn => exact fun s => ⟨_, by rw [exec_uPushn]; unfold execUPushn; rfl⟩
  | uPopn => exact fun s => ⟨_, by rw [exec_uPopn]; unfold execUPopn; rfl⟩
  | uNextp => exact fun s => ⟨_, by rw [exec_uNextp]; unfold execUNextp; rfl⟩
  | uAnyh => exact fun s => ⟨_, by rw [exec_uAnyh]; unfold execUAnyh; rfl⟩
  | uXfrm => exact fun s => ⟨_, by rw [exec_uXfrm]; unfold execUXfrm; rfl⟩
  | uXret => exact fun s => ⟨_, by rw [exec_uXret]; unfold execUXret; rfl⟩
  | uMiss => exact fun s => ⟨_, by rw [exec_uMiss]; unfold execUMiss; rfl⟩
  | uDone => exact fun s => ⟨_, by rw [exec_uDone]; unfold execUDone; rfl⟩
  | evPrcntRead => exact nomatch h
  | evTlbInvalidateVa => exact nomatch h
  | evTlbInvalidateContext => exact nomatch h
  | evTlbInvalidateAll => exact nomatch h
  | evTlbInvalidateDone => exact nomatch h
  | evIcacheInvalidateVa => exact nomatch h
  | evIcacheInvalidateContext => exact nomatch h
  | evIcacheInvalidateAll => exact nomatch h
  | evIcacheInvalidateDone => exact nomatch h
  | evFaultQueueEntry => exact nomatch h
  | evFaultQueueDisable => exact nomatch h
  | evCecntClear => exact nomatch h
  | evUecntClear => exact nomatch h
  | evBudgetWindow => exact nomatch h
  | evProtectiveTrip => exact nomatch h
  | evDeviceReset => exact nomatch h

/-- An event happens with nothing selected. -/
theorem event_happens {i : Instr} (h : isEvent i = true) : ∀ s, ∃ f, exec i s = happen f s := by
  cases i with
  | setm _ => exact nomatch h
  | bra _ _ _ _ => exact nomatch h
  | bru _ _ _ _ => exact nomatch h
  | jmps _ => exact nomatch h
  | call _ _ _ => exact nomatch h
  | calls _ => exact nomatch h
  | sync _ => exact nomatch h
  | trap _ => exact nomatch h
  | ppt _ => exact nomatch h
  | rscope _ => exact nomatch h
  | execr _ => exact nomatch h
  | execw _ => exact nomatch h
  | sprr _ _ => exact nomatch h
  | sprw _ _ => exact nomatch h
  | clkr _ => exact nomatch h
  | ufirst _ _ => exact nomatch h
  | uchk _ => exact nomatch h
  | ulane _ _ _ => exact nomatch h
  | sadd _ _ _ => exact nomatch h
  | ssub _ _ _ => exact nomatch h
  | smul _ _ _ => exact nomatch h
  | sand _ _ _ => exact nomatch h
  | sor _ _ _ => exact nomatch h
  | sxor _ _ _ => exact nomatch h
  | sshl _ _ _ => exact nomatch h
  | sshr _ _ _ => exact nomatch h
  | ssar _ _ _ => exact nomatch h
  | smov _ _ => exact nomatch h
  | smulh _ _ _ _ => exact nomatch h
  | smin _ _ _ _ => exact nomatch h
  | smax _ _ _ _ => exact nomatch h
  | scmp _ _ _ _ => exact nomatch h
  | qop _ _ _ _ => exact nomatch h
  | smovi _ _ => exact nomatch h
  | smovh _ _ => exact nomatch h
  | sld _ _ _ _ => exact nomatch h
  | sst _ _ _ _ => exact nomatch h
  | iadd _ _ _ => exact nomatch h
  | isub _ _ _ => exact nomatch h
  | imul _ _ _ => exact nomatch h
  | imulh _ _ _ => exact nomatch h
  | imad _ _ _ => exact nomatch h
  | imin _ _ _ => exact nomatch h
  | imax _ _ _ => exact nomatch h
  | iabs _ _ => exact nomatch h
  | vand _ _ _ => exact nomatch h
  | vor _ _ _ => exact nomatch h
  | vxor _ _ _ => exact nomatch h
  | vandn _ _ _ => exact nomatch h
  | shl _ _ _ => exact nomatch h
  | shr _ _ _ => exact nomatch h
  | sar _ _ _ => exact nomatch h
  | popc _ _ => exact nomatch h
  | clz _ _ => exact nomatch h
  | brev _ _ => exact nomatch h
  | bfe _ _ _ => exact nomatch h
  | bfi _ _ _ => exact nomatch h
  | icmp _ _ _ _ => exact nomatch h
  | sel _ _ _ _ => exact nomatch h
  | mov _ _ => exact nomatch h
  | movi _ _ => exact nomatch h
  | lea _ _ _ _ => exact nomatch h
  | plop _ _ _ _ => exact nomatch h
  | iaddImm _ _ _ => exact nomatch h
  | andImm _ _ _ => exact nomatch h
  | orImm _ _ _ => exact nomatch h
  | shlImm _ _ _ => exact nomatch h
  | shrImm _ _ _ => exact nomatch h
  | sarImm _ _ _ => exact nomatch h
  | fadd _ _ _ => exact nomatch h
  | fsub _ _ _ => exact nomatch h
  | fmul _ _ _ => exact nomatch h
  | ffma _ _ _ => exact nomatch h
  | fmin _ _ _ => exact nomatch h
  | fmax _ _ _ => exact nomatch h
  | fabs _ _ => exact nomatch h
  | fneg _ _ => exact nomatch h
  | fcmp _ _ _ _ => exact nomatch h
  | fcvt _ _ _ => exact nomatch h
  | frint _ _ => exact nomatch h
  | fclass _ _ => exact nomatch h
  | fsat _ _ => exact nomatch h
  | rcp _ _ => exact nomatch h
  | rsq _ _ => exact nomatch h
  | sqrt _ _ => exact nomatch h
  | ex2 _ _ => exact nomatch h
  | lg2 _ _ => exact nomatch h
  | sin _ _ => exact nomatch h
  | cos _ _ => exact nomatch h
  | tanh _ _ => exact nomatch h
  | sigm _ _ => exact nomatch h
  | tseed _ _ _ => exact nomatch h
  | tget _ _ _ => exact nomatch h
  | tset _ _ _ => exact nomatch h
  | tclr _ => exact nomatch h
  | tlin _ _ _ => exact nomatch h
  | tfoot _ _ _ => exact nomatch h
  | tflag _ _ => exact nomatch h
  | shfl _ _ _ _ => exact nomatch h
  | ballot _ _ => exact nomatch h
  | eqmask _ _ => exact nomatch h
  | redu _ _ _ => exact nomatch h
  | minidx _ _ _ => exact nomatch h
  | scan _ _ _ _ => exact nomatch h
  | welf _ _ _ => exact nomatch h
  | smxm _ _ _ => exact nomatch h
  | smxn _ _ _ _ => exact nomatch h
  | ldU8 _ _ _ _ => exact nomatch h
  | ldS8 _ _ _ _ => exact nomatch h
  | ldU16 _ _ _ _ => exact nomatch h
  | ldS16 _ _ _ _ => exact nomatch h
  | ldB32 _ _ _ _ => exact nomatch h
  | ldB64 _ _ _ _ => exact nomatch h
  | ldB128 _ _ _ _ => exact nomatch h
  | stB8 _ _ _ _ => exact nomatch h
  | stB16 _ _ _ _ => exact nomatch h
  | stB32 _ _ _ _ => exact nomatch h
  | stB64 _ _ _ _ => exact nomatch h
  | stB128 _ _ _ _ => exact nomatch h
  | ldt _ _ _ _ => exact nomatch h
  | stt _ _ _ _ => exact nomatch h
  | prf _ _ _ => exact nomatch h
  | atom _ _ _ _ => exact nomatch h
  | red _ _ _ _ => exact nomatch h
  | fence _ _ _ => exact nomatch h
  | xfence _ => exact nomatch h
  | waitp _ _ => exact nomatch h
  | bar _ _ => exact nomatch h
  | bara _ _ _ => exact nomatch h
  | barw _ _ => exact nomatch h
  | cbwait _ _ => exact nomatch h
  | ldcb _ _ => exact nomatch h
  | marm _ _ _ => exact nomatch h
  | mwait _ => exact nomatch h
  | txb _ => exact nomatch h
  | txa _ => exact nomatch h
  | skid _ _ _ => exact nomatch h
  | skidg _ _ _ _ => exact nomatch h
  | kmma _ _ _ _ => exact nomatch h
  | kmmaPair _ _ _ _ => exact nomatch h
  | kdrn _ _ _ _ => exact nomatch h
  | kzero _ _ => exact nomatch h
  | kstat _ _ _ => exact nomatch h
  | cruz _ _ _ _ => exact nomatch h
  | crget _ _ _ => exact nomatch h
  | crld _ _ _ => exact nomatch h
  | cnop _ _ _ => exact nomatch h
  | cnad _ _ _ => exact nomatch h
  | cnrd _ _ _ => exact nomatch h
  | cncl _ _ _ => exact nomatch h
  | cnaj _ _ _ _ => exact nomatch h
  | sortk _ _ _ _ => exact nomatch h
  | ralc _ _ _ _ => exact nomatch h
  | rcmt _ _ _ => exact nomatch h
  | rget _ _ _ => exact nomatch h
  | prim _ _ _ => exact nomatch h
  | tex _ _ _ _ => exact nomatch h
  | evIllegalWord _ => exact nomatch h
  | evMemoryAccessPerform op => exact fun s => ⟨_, by rw [exec_evMemoryAccessPerform]; unfold execEvMemoryAccessPerform; rfl⟩
  | evLoadSectorReturn op sector => exact fun s => ⟨_, by rw [exec_evLoadSectorReturn]; unfold execEvLoadSectorReturn; rfl⟩
  | evTranslationWalk ctx va => exact fun s => ⟨_, by rw [exec_evTranslationWalk]; unfold execEvTranslationWalk; rfl⟩
  | evReleaseWindow op => exact fun s => ⟨_, by rw [exec_evReleaseWindow]; unfold execEvReleaseWindow; rfl⟩
  | evKerfFetch op => exact fun s => ⟨_, by rw [exec_evKerfFetch]; unfold execEvKerfFetch; rfl⟩
  | evKerfSlot op => exact fun s => ⟨_, by rw [exec_evKerfSlot]; unfold execEvKerfSlot; rfl⟩
  | evKerfPromotion op => exact fun s => ⟨_, by rw [exec_evKerfPromotion]; unfold execEvKerfPromotion; rfl⟩
  | evKdrnDrain op => exact fun s => ⟨_, by rw [exec_evKdrnDrain]; unfold execEvKdrnDrain; rfl⟩
  | evKzeroClear op => exact fun s => ⟨_, by rw [exec_evKzeroClear]; unfold execEvKzeroClear; rfl⟩
  | evKstatReport op => exact fun s => ⟨_, by rw [exec_evKstatReport]; unfold execEvKstatReport; rfl⟩
  | evSkidderCopy op => exact fun s => ⟨_, by rw [exec_evSkidderCopy]; unfold execEvSkidderCopy; rfl⟩
  | evCanopyLaneStep op => exact fun s => ⟨_, by rw [exec_evCanopyLaneStep]; unfold execEvCanopyLaneStep; rfl⟩
  | uJmp _ => exact nomatch h
  | uJz _ _ _ => exact nomatch h
  | uJnz _ _ _ => exact nomatch h
  | uLeaf _ _ => exact nomatch h
  | uHitc _ => exact nomatch h
  | uSetf _ => exact nomatch h
  | uClrf _ => exact nomatch h
  | uCntr _ _ => exact nomatch h
  | uFaultx _ => exact nomatch h
  | evRayTakeUp core ctx => exact fun s => ⟨_, by rw [exec_evRayTakeUp]; unfold execEvRayTakeUp; rfl⟩
  | evRayDelivery ray => exact fun s => ⟨_, by rw [exec_evRayDelivery]; unfold execEvRayDelivery; rfl⟩
  | evRasterSampleUpdate op => exact fun s => ⟨_, by rw [exec_evRasterSampleUpdate]; unfold execEvRasterSampleUpdate; rfl⟩
  | evTextureReturn op lane => exact fun s => ⟨_, by rw [exec_evTextureReturn]; unfold execEvTextureReturn; rfl⟩
  | evRalcServe op => exact fun s => ⟨_, by rw [exec_evRalcServe]; unfold execEvRalcServe; rfl⟩
  | evRalcStallExpiry op => exact fun s => ⟨_, by rw [exec_evRalcStallExpiry]; unfold execEvRalcStallExpiry; rfl⟩
  | evBatchTimeout landing => exact fun s => ⟨_, by rw [exec_evBatchTimeout]; unfold execEvBatchTimeout; rfl⟩
  | evRecordReturn team => exact fun s => ⟨_, by rw [exec_evRecordReturn]; unfold execEvRecordReturn; rfl⟩
  | evRscopePressure core => exact fun s => ⟨_, by rw [exec_evRscopePressure]; unfold execEvRscopePressure; rfl⟩
  | evScopeServe core => exact fun s => ⟨_, by rw [exec_evScopeServe]; unfold execEvScopeServe; rfl⟩
  | evYieldExpiry gs => exact fun s => ⟨_, by rw [exec_evYieldExpiry]; unfold execEvYieldExpiry; rfl⟩
  | evWatchdog gs => exact fun s => ⟨_, by rw [exec_evWatchdog]; unfold execEvWatchdog; rfl⟩
  | evFullSaveEscalation gs => exact fun s => ⟨_, by rw [exec_evFullSaveEscalation]; unfold execEvFullSaveEscalation; rfl⟩
  | evTeamSave team => exact fun s => ⟨_, by rw [exec_evTeamSave]; unfold execEvTeamSave; rfl⟩
  | evTeamRestore team => exact fun s => ⟨_, by rw [exec_evTeamRestore]; unfold execEvTeamRestore; rfl⟩
  | evTeamPlacement grid => exact fun s => ⟨_, by rw [exec_evTeamPlacement]; unfold execEvTeamPlacement; rfl⟩
  | evLaunchPacket queue => exact fun s => ⟨_, by rw [exec_evLaunchPacket]; unfold execEvLaunchPacket; rfl⟩
  | evLaunchCompletion grid => exact fun s => ⟨_, by rw [exec_evLaunchCompletion]; unfold execEvLaunchCompletion; rfl⟩
  | evLqbell queue => exact fun s => ⟨_, by rw [exec_evLqbell]; unfold execEvLqbell; rfl⟩
  | evPreemptRequest value => exact fun s => ⟨_, by rw [exec_evPreemptRequest]; unfold execEvPreemptRequest; rfl⟩
  | evPreemptCancel value => exact fun s => ⟨_, by rw [exec_evPreemptCancel]; unfold execEvPreemptCancel; rfl⟩
  | evTkill value => exact fun s => ⟨_, by rw [exec_evTkill]; unfold execEvTkill; rfl⟩
  | evFaultResponse seq => exact fun s => ⟨_, by rw [exec_evFaultResponse]; unfold execEvFaultResponse; rfl⟩
  | evFaultResponseFail seq => exact fun s => ⟨_, by rw [exec_evFaultResponseFail]; unfold execEvFaultResponseFail; rfl⟩
  | evFsetWrite cluster value => exact fun s => ⟨_, by rw [exec_evFsetWrite]; unfold execEvFsetWrite; rfl⟩
  | evFrequencyChange cluster => exact fun s => ⟨_, by rw [exec_evFrequencyChange]; unfold execEvFrequencyChange; rfl⟩
  | evScrub addr kind => exact fun s => ⟨_, by rw [exec_evScrub]; unfold execEvScrub; rfl⟩
  | evCoreStateUncorrectable gs pc src => exact fun s => ⟨_, by rw [exec_evCoreStateUncorrectable]; unfold execEvCoreStateUncorrectable; rfl⟩
  | evDieReady die ok => exact fun s => ⟨_, by rw [exec_evDieReady]; unfold execEvDieReady; rfl⟩
  | evStackReady stack ok => exact fun s => ⟨_, by rw [exec_evStackReady]; unfold execEvStackReady; rfl⟩
  | evPortReady port ok => exact fun s => ⟨_, by rw [exec_evPortReady]; unfold execEvPortReady; rfl⟩
  | evFirmwareUpdate ecdsa lms version => exact fun s => ⟨_, by rw [exec_evFirmwareUpdate]; unfold execEvFirmwareUpdate; rfl⟩
  | evPtpSync offset => exact fun s => ⟨_, by rw [exec_evPtpSync]; unfold execEvPtpSync; rfl⟩
  | evPortDown port => exact fun s => ⟨_, by rw [exec_evPortDown]; unfold execEvPortDown; rfl⟩
  | evHostCxlMemWrite addr bytes => exact fun s => ⟨_, by rw [exec_evHostCxlMemWrite]; unfold execEvHostCxlMemWrite; rfl⟩
  | evRegisterWrite off value size => exact fun s => ⟨_, by rw [exec_evRegisterWrite]; unfold execEvRegisterWrite; rfl⟩
  | evIllegalMicroword _ => exact nomatch h
  | evPeerMemoryAccess addr wr bytes => exact fun s => ⟨_, by rw [exec_evPeerMemoryAccess]; unfold execEvPeerMemoryAccess; rfl⟩
  | nop => exact nomatch h
  | ret => exact nomatch h
  | exit => exact nomatch h
  | tret => exact nomatch h
  | yield => exact nomatch h
  | rsend => exact nomatch h
  | cbar => exact nomatch h
  | txc => exact nomatch h
  | uNload => exact nomatch h
  | uBoxn => exact nomatch h
  | uTrin => exact nomatch h
  | uSphn => exact nomatch h
  | uOrdn => exact nomatch h
  | uPushn => exact nomatch h
  | uPopn => exact nomatch h
  | uNextp => exact nomatch h
  | uAnyh => exact nomatch h
  | uXfrm => exact nomatch h
  | uXret => exact nomatch h
  | uMiss => exact nomatch h
  | uDone => exact nomatch h
  | evPrcntRead => exact fun s => ⟨_, by rw [exec_evPrcntRead]; unfold execEvPrcntRead; rfl⟩
  | evTlbInvalidateVa => exact fun s => ⟨_, by rw [exec_evTlbInvalidateVa]; unfold execEvTlbInvalidateVa; rfl⟩
  | evTlbInvalidateContext => exact fun s => ⟨_, by rw [exec_evTlbInvalidateContext]; unfold execEvTlbInvalidateContext; rfl⟩
  | evTlbInvalidateAll => exact fun s => ⟨_, by rw [exec_evTlbInvalidateAll]; unfold execEvTlbInvalidateAll; rfl⟩
  | evTlbInvalidateDone => exact fun s => ⟨_, by rw [exec_evTlbInvalidateDone]; unfold execEvTlbInvalidateDone; rfl⟩
  | evIcacheInvalidateVa => exact fun s => ⟨_, by rw [exec_evIcacheInvalidateVa]; unfold execEvIcacheInvalidateVa; rfl⟩
  | evIcacheInvalidateContext => exact fun s => ⟨_, by rw [exec_evIcacheInvalidateContext]; unfold execEvIcacheInvalidateContext; rfl⟩
  | evIcacheInvalidateAll => exact fun s => ⟨_, by rw [exec_evIcacheInvalidateAll]; unfold execEvIcacheInvalidateAll; rfl⟩
  | evIcacheInvalidateDone => exact fun s => ⟨_, by rw [exec_evIcacheInvalidateDone]; unfold execEvIcacheInvalidateDone; rfl⟩
  | evFaultQueueEntry => exact fun s => ⟨_, by rw [exec_evFaultQueueEntry]; unfold execEvFaultQueueEntry; rfl⟩
  | evFaultQueueDisable => exact fun s => ⟨_, by rw [exec_evFaultQueueDisable]; unfold execEvFaultQueueDisable; rfl⟩
  | evCecntClear => exact fun s => ⟨_, by rw [exec_evCecntClear]; unfold execEvCecntClear; rfl⟩
  | evUecntClear => exact fun s => ⟨_, by rw [exec_evUecntClear]; unfold execEvUecntClear; rfl⟩
  | evBudgetWindow => exact fun s => ⟨_, by rw [exec_evBudgetWindow]; unfold execEvBudgetWindow; rfl⟩
  | evProtectiveTrip => exact fun s => ⟨_, by rw [exec_evProtectiveTrip]; unfold execEvProtectiveTrip; rfl⟩
  | evDeviceReset => exact fun s => ⟨_, by rw [exec_evDeviceReset]; unfold execEvDeviceReset; rfl⟩

end Sys2Proof.Machine
end

