-- ==== Sys2Proof/Laws/Sparse.lean ====
section
/-!
SUPPORT. Reading a sparse store after a write, and the canonical form that every write keeps.
-/
namespace Sys2Proof.Machine

variable {α : Type} [DecidableEq α] {d v : α} {m : Sparse α} {q k lo : Nat}

omit [DecidableEq α] in
theorem sget_skeep {p : Nat → Bool} : sget d (skeep p m) k = if p k then sget d m k else d := by
  induction m with
  | nil => simp [skeep, sget]
  | cons x rest ih =>
    obtain ⟨a, b⟩ := x
    by_cases ha : p a <;> by_cases hk : k = a <;> simp_all [skeep, sget]

omit [DecidableEq α] in
theorem sget_splace : sget d (splace m q v) k = if k = q then v else sget d m k := by
  induction m with
  | nil => simp [splace, sget]
  | cons x rest ih =>
    obtain ⟨a, b⟩ := x
    simp only [splace]
    split
    · simp [sget]
    · split
      · subst_vars; by_cases hk : k = a <;> simp [sget, hk]
      · by_cases hk : k = a <;> simp_all [sget]
        intro h; simp_all

/-- A write is read back at its key, and leaves every other key alone. -/
theorem sget_sset : sget d (sset d m q v) k = if k = q then v else sget d m k := by
  unfold sset
  split
  · by_cases h : k = q <;> simp_all [sget_skeep]
  · exact sget_splace

@[simp] theorem sget_sset_same : sget d (sset d m q v) q = v := by simp [sget_sset]

theorem sget_sset_other (h : k ≠ q) : sget d (sset d m q v) k = sget d m k := by simp [sget_sset, h]

/-- Several writes leave a key alone that none of them names. -/
theorem sget_ssets_other {ws : List (Nat × α)} (h : ∀ w ∈ ws, w.1 ≠ k) : sget d (ssets d m ws) k = sget d m k := by
  induction ws generalizing m with
  | nil => rfl
  | cons w rest ih =>
    obtain ⟨a, b⟩ := w
    simp only [ssets]
    rw [ih fun w hw => h w (List.mem_cons_of_mem _ hw)]
    exact sget_sset_other fun e => h (a, b) (List.mem_cons_self ..) e.symm

/-- Several writes, no key named with two values: each is read back. -/
theorem sget_ssets_mem {ws : List (Nat × α)} (h : (k, v) ∈ ws) (u : ∀ w ∈ ws, w.1 = k → w.2 = v) :
    sget d (ssets d m ws) k = v := by
  induction ws generalizing m with
  | nil => simp at h
  | cons w rest ih =>
    obtain ⟨a, b⟩ := w
    simp only [ssets]
    by_cases hr : (k, v) ∈ rest
    · exact ih hr fun w hw => u w (List.mem_cons_of_mem _ hw)
    · have e : k = a ∧ v = b := by simpa [hr] using h
      by_cases hn : ∃ w ∈ rest, w.1 = k
      · obtain ⟨w, hw, hk⟩ := hn
        exact absurd (by have := u w (List.mem_cons_of_mem _ hw) hk; rw [← this, ← hk]; exact hw) hr
      · rw [sget_ssets_other fun w hw hk => hn ⟨w, hw, hk⟩, e.1, e.2, sget_sset_same]

theorem swfFrom_mono {lo' : Nat} (h : swfFrom d lo m = true) (l : lo' ≤ lo) : swfFrom d lo' m = true := by
  cases m with
  | nil => rfl
  | cons x rest => simp_all [swfFrom]; omega

theorem swfFrom_skeep {p : Nat → Bool} (h : swfFrom d lo m = true) : swfFrom d lo (skeep p m) = true := by
  induction m generalizing lo with
  | nil => rfl
  | cons x rest ih =>
    obtain ⟨a, b⟩ := x
    simp only [swfFrom, Bool.and_eq_true, decide_eq_true_eq] at h
    by_cases hp : p a
    · simp_all [skeep, swfFrom]
    · have := ih h.2
      simp only [skeep, List.filter, hp]
      exact swfFrom_mono this (by omega)

theorem swfFrom_splace (h : swfFrom d lo m = true) (hq : lo ≤ q) (hv : v ≠ d) : swfFrom d lo (splace m q v) = true := by
  induction m generalizing lo with
  | nil => simp [splace, swfFrom, hq, hv]
  | cons x rest ih =>
    obtain ⟨a, b⟩ := x
    simp only [swfFrom, Bool.and_eq_true, decide_eq_true_eq] at h
    simp only [splace]
    split
    · simp only [swfFrom, Bool.and_eq_true, decide_eq_true_eq]
      exact ⟨⟨hq, hv⟩, ⟨by omega, h.1.2⟩, h.2⟩
    · split
      · simp_all [swfFrom]
      · simp only [swfFrom, Bool.and_eq_true, decide_eq_true_eq]
        exact ⟨h.1, ih h.2 (by omega)⟩

/-- A write keeps the canonical form. -/
theorem swf_sset (h : swf d m = true) : swf d (sset d m q v) = true := by
  unfold sset swf
  split
  · exact swfFrom_skeep h
  · exact swfFrom_splace h (Nat.zero_le _) ‹_›

theorem swf_ssets {ws : List (Nat × α)} (h : swf d m = true) : swf d (ssets d m ws) = true := by
  induction ws generalizing m with
  | nil => exact h
  | cons w rest ih => exact ih (swf_sset h)

/-- Stores in their canonical form that read alike at every key are equal. -/
theorem swf_ext {m' : Sparse α} (h : swf d m = true) (h' : swf d m' = true) (e : ∀ k, sget d m k = sget d m' k) : m = m' := by
  have low : ∀ {x : Sparse α} {lo k : Nat}, swfFrom d lo x = true → k < lo → sget d x k = d := by
    intro x
    induction x with
    | nil => intros; rfl
    | cons y rest ih =>
      intro lo k hx hk
      simp only [swfFrom, Bool.and_eq_true, decide_eq_true_eq] at hx
      have : k ≠ y.1 := by omega
      simp only [sget, this, if_false]
      exact ih hx.2 (by omega)
  have main : ∀ {x y : Sparse α} {lo lo' : Nat}, swfFrom d lo x = true → swfFrom d lo' y = true →
      (∀ k, sget d x k = sget d y k) → x = y := by
    intro x
    induction x with
    | nil =>
      intro y lo lo' _ hy hk
      cases y with
      | nil => rfl
      | cons b rest =>
        simp only [swfFrom, Bool.and_eq_true, decide_eq_true_eq] at hy
        have := hk b.1
        simp [sget] at this
        exact absurd this.symm hy.1.2
    | cons a rest ih =>
      intro y lo lo' hx hy hk
      simp only [swfFrom, Bool.and_eq_true, decide_eq_true_eq] at hx
      cases y with
      | nil =>
        have := hk a.1
        simp [sget] at this
        exact absurd this hx.1.2
      | cons b rest' =>
        simp only [swfFrom, Bool.and_eq_true, decide_eq_true_eq] at hy
        have hab : a.1 = b.1 := by
          rcases Nat.lt_trichotomy a.1 b.1 with l | l | l
          · have := hk a.1
            rw [show sget d (b :: rest') a.1 = d from by
              have : a.1 ≠ b.1 := by omega
              simp only [sget, this, if_false]
              exact low hy.2 (by omega)] at this
            simp [sget] at this
            exact absurd this hx.1.2
          · exact l
          · have := hk b.1
            rw [show sget d (a :: rest) b.1 = d from by
              have : b.1 ≠ a.1 := by omega
              simp only [sget, this, if_false]
              exact low hx.2 (by omega)] at this
            simp [sget] at this
            exact absurd this.symm hy.1.2
        have hv : a.2 = b.2 := by have := hk a.1; simpa [sget, hab] using this
        have : a = b := Prod.ext hab hv
        subst this
        congr 1
        refine ih hx.2 hy.2 fun k => ?_
        have h3 := hk k
        by_cases e : k = a.1
        · rw [low hx.2 (by omega), low hy.2 (by omega)]
        · simpa [sget, e] using h3
  exact main h h' e

end Sys2Proof.Machine
end

