-- ==== Sys2Proof/Laws/Lanes.lean ====
section
/-!
SUPPORT. What the writers of registers do, read through the register files: vector words and planes by lane, scalars, predicates and
TFLAGS.
-/
namespace Sys2Proof.Machine

theorem mem_lanesOf {m : Mask} {l : Nat} : l ∈ lanesOf m ↔ l < 32 ∧ m.getLsbD l = true := by simp [lanesOf]

theorem lanesOf_nodup (m : Mask) : (lanesOf m).Nodup := List.nodup_range.filter _

theorem vkey_inj {r r' k k' l l' : Nat} (hk : k < 16) (hk' : k' < 16) (hl : l < 32) (hl' : l' < 32) :
    vkey r k l = vkey r' k' l' ↔ r = r' ∧ k = k' ∧ l = l' := by
  unfold vkey; omega

theorem d_lt (s : State) : s.d < 9 := s.me.tangents.isLt

/-! ## Vector registers -/

theorem mem_tangentWords {d r l : Nat} {w : Word} {ps : List Word} {q : Nat} {v : Word} :
    (q, v) ∈ tangentWords d r l w ps ↔
      (q = vkey r 0 l ∧ v = w) ∨ ∃ k, k < d ∧ q = vkey r (k + 1) l ∧ v = ps.getD k 0 := by
  simp only [tangentWords, List.mem_cons, List.mem_map, List.mem_range, Prod.mk.injEq]
  constructor
  · rintro (h | ⟨k, hk, h, e⟩)
    · exact .inl h
    · exact .inr ⟨k, hk, h.symm, e.symm⟩
  · rintro (h | ⟨k, hk, h, e⟩)
    · exact .inl h
    · exact .inr ⟨k, hk, h.symm, e.symm⟩

/-- Values with their planes written in some lanes of a register. -/
theorem vword_putVs {g : Group} {d n : Nat} {ls : List Nat} {w : Nat → Word} {ps : Nat → List Word} {r k l : Nat} (hn : n < 9)
    (hk : k ≤ n) (hl : l < 32) (hs : ∀ x ∈ ls, x < 32) :
    (g.putVs (ls.flatMap fun l => tangentWords n d l (w l) (ps l))).vword r k l =
      if r = d ∧ l ∈ ls then (if k = 0 then w l else (ps l).getD (k - 1) 0) else g.vword r k l := by
  unfold Group.putVs Group.vword
  have key : ∀ q v, (q, v) ∈ ls.flatMap (fun l => tangentWords n d l (w l) (ps l)) → q = vkey r k l →
      r = d ∧ l ∈ ls ∧ v = (if k = 0 then w l else (ps l).getD (k - 1) 0) := by
    intro q v h e
    simp only [List.mem_flatMap, mem_tangentWords] at h
    obtain ⟨x, hx, ⟨h1, h2⟩ | ⟨j, hj, h1, h2⟩⟩ := h
    all_goals
      have := (vkey_inj (by omega) (by omega) hl (hs x hx)).1 (e.symm.trans h1)
      obtain ⟨rfl, rfl, rfl⟩ := this
      exact ⟨rfl, hx, by simpa using h2⟩
  by_cases c : r = d ∧ l ∈ ls
  · rw [if_pos c]
    refine sget_ssets_mem ?_ fun a ha e => (key a.1 a.2 ha e).2.2
    simp only [List.mem_flatMap, mem_tangentWords]
    refine ⟨l, c.2, ?_⟩
    cases k with
    | zero => exact .inl ⟨by rw [c.1], rfl⟩
    | succ k => exact .inr ⟨k, by omega, by rw [c.1], rfl⟩
  · rw [if_neg c]
    refine sget_ssets_other fun a ha e => c ?_
    have := key a.1 a.2 ha e
    exact ⟨this.1, this.2.1⟩

theorem plainWords_eq (d r l : Nat) (w : Word) : plainWords d r l w = tangentWords d r l w [] := by
  simp [plainWords, tangentWords]

/-! ## TFLAGS -/

theorem flags_addFlags (g : Group) (a l : Nat) (f : BitVec 3) :
    (g.addFlags a f).flags l = if l = a then g.flags l ||| f else g.flags l := by
  unfold Group.addFlags Group.flags
  rw [sget_sset]
  split <;> simp_all

theorem flags_fold (ls : List Nat) (f : Nat → BitVec 3) (l : Nat) (u : ls.Nodup) (g : Group) :
    (((ls.map fun l => (l, f l)).filter fun lf => lf.2 != 0).foldl (fun (g : Group) lf => g.addFlags lf.1 lf.2) g).flags l =
      if l ∈ ls then g.flags l ||| f l else g.flags l := by
  induction ls generalizing g with
  | nil => simp
  | cons a rest ih =>
    have hu := List.nodup_cons.1 u
    by_cases h0 : f a = 0
    · simp only [List.map_cons, List.filter_cons, h0, bne_self_eq_false, Bool.false_eq_true, if_false]
      rw [ih hu.2]
      by_cases e : l = a
      · subst e; simp [hu.1, h0]
      · simp [e]
    · have : (f a != 0) = true := by simpa using h0
      simp only [List.map_cons, List.filter_cons, this, if_true, List.foldl_cons]
      rw [ih hu.2, flags_addFlags]
      by_cases e : l = a
      · subst e; simp [hu.1]
      · simp [e]

theorem addFlags_fold_body (fs : List (Nat × BitVec 3)) (g : Group) :
    fs.foldl (fun (g : Group) lf => g.addFlags lf.1 lf.2) g =
      { g with tflags := (fs.foldl (fun (g : Group) lf => g.addFlags lf.1 lf.2) g).tflags } := by
  induction fs generalizing g with
  | nil => rfl
  | cons a rest ih =>
    rw [List.foldl_cons, ih]
    rfl

/-! ## A result in every active lane -/

/-- What `writeLanes` can do. -/
theorem writeLanes_eq (s : State) (ws : Nat → List (Nat × Word)) (f : Nat → BitVec 3) :
    s.writeLanes ws f = { s with me := { s.me with
      vregs := (s.me.putVs ((lanesOf s.active).flatMap ws)).vregs, tflags := (s.writeLanes ws f).me.tflags } } := by
  simp only [State.writeLanes, State.addFlags, State.wrVs, State.modMe]
  rw [addFlags_fold_body]
  rfl

theorem writeLanes_flags (s : State) (ws : Nat → List (Nat × Word)) (f : Nat → BitVec 3) (l : Nat) (h : l < 32) :
    (s.writeLanes ws f).me.flags l = if s.active.getLsbD l then s.me.flags l ||| f l else s.me.flags l := by
  simp only [State.writeLanes, State.addFlags, State.wrVs, State.modMe]
  rw [flags_fold _ _ _ (lanesOf_nodup _)]
  simp [mem_lanesOf, h, Group.putVs, Group.flags]

theorem flags_none (s : State) (ws : Nat → List (Nat × Word)) :
    (s.writeLanes ws fun _ => 0).me.tflags = s.me.tflags := by
  have : ∀ (ls : List Nat), (ls.map fun l => (l, (0 : BitVec 3))).filter (fun lf => lf.2 != 0) = [] := by
    intro ls; induction ls <;> simp_all
  simp only [State.writeLanes, State.addFlags, State.wrVs, State.modMe, this]
  rfl

theorem writeLanes_vec (s : State) {d : Nat} (w : Nat → Word) (ps : Nat → List Word) (f : Nat → BitVec 3) :
    VecIs s (s.writeLanes (fun l => tangentWords s.d d l (w l) (ps l)) f) d w fun k l => (ps l).getD k 0 := by
  intro r k l hk hl
  rw [writeLanes_eq]
  show (s.me.putVs _).vword r k l = _
  rw [vword_putVs (d_lt s) hk hl fun x hx => (mem_lanesOf.1 hx).1]
  simp [mem_lanesOf, hl]

/-! ## Scalars and predicates -/

theorem wrS_scalar (s : State) (d : Nat) (w : Word) : ScalarIs s (s.wrS d w) d w :=
  ⟨sget_sset_same, fun _ h => sget_sset_other h⟩

theorem getLsbD_laneBit {l k : Nat} : (laneBit l).getLsbD k = (decide (k < 32) && decide (k = l)) := by
  simp only [laneBit, BitVec.getLsbD_shiftLeft, BitVec.getLsbD_one]
  by_cases h1 : k < 32 <;> by_cases h2 : k < l <;> by_cases h3 : k = l <;> simp_all <;> omega

theorem getLsbD_maskOf {ls : List Nat} {k : Nat} : (maskOf ls).getLsbD k = (decide (k < 32) && ls.contains k) := by
  have : ∀ (m : Mask), (ls.foldl (fun m l => m ||| laneBit l) m).getLsbD k =
      (m.getLsbD k || (decide (k < 32) && ls.contains k)) := by
    induction ls with
    | nil => simp
    | cons a rest ih =>
      intro m
      rw [List.foldl_cons, ih, BitVec.getLsbD_or, getLsbD_laneBit]
      by_cases h1 : k < 32 <;> by_cases h2 : k = a <;> simp_all
  rw [maskOf, this]; simp

theorem getLsbD_maskBy {p : Nat → Bool} {k : Nat} : (maskBy p).getLsbD k = (decide (k < 32) && p k) := by
  rw [maskBy, getLsbD_maskOf]
  by_cases h : k < 32 <;> by_cases h2 : p k <;> simp [h, h2]

theorem predLanes_pred (s : State) (d : Nat) (f : Nat → Bool) : PredIs s (s.predLanes d f) d f := by
  intro p l hl
  simp only [State.predLanes, State.wrP, State.modMe, Group.putP]
  by_cases hd : d = 0
  · simp [hd]
  · rw [if_neg hd]
    by_cases hp : p = d
    · subst hp
      simp only [Group.pred, hd, if_false, sget_sset_same, BitVec.getLsbD_or, BitVec.getLsbD_and, BitVec.getLsbD_not,
        getLsbD_maskBy, hl]
      cases s.active.getLsbD l <;> simp [hd]
    · by_cases h0 : p = 0
      · simp [Group.pred, h0, hd, Ne.symm hd]
      · simp [Group.pred, h0, hp, sget_sset_other hp]

theorem wrQ_uniform (s : State) (d : Nat) (v : Bool) : UniformIs s (s.wrQ d v) d v := by
  intro k hk
  unfold State.wrQ
  by_cases h0 : d = 0
  · simp [h0]
  · simp only [h0, if_false, State.modMe, Group.q]
    by_cases e : k = d
    · subst e
      cases v <;> simp [h0, hk]
    · have : ((1#8 <<< d).getLsbD k) = false := by
        simp [BitVec.getLsbD_shiftLeft, BitVec.getLsbD_one]; omega
      cases v <;> simp only [BitVec.getLsbD_or, BitVec.getLsbD_and, BitVec.getLsbD_not, this, if_true, if_false, e,
        false_and, Bool.false_eq_true, hk] <;> simp

/-! ## Instructions that write registers and go on -/

/-- A result in the active lanes, with flags. -/
theorem lanes_complete {i : Instr} {g : State → State} {s : State} {d : Nat} {w : Nat → Word} {ps : Nat → List Word}
    {f : Nat → BitVec 3} (h : Free i s) (e : exec i s = simple i g s)
    (k : g s.stamp = s.stamp.writeLanes (fun l => tangentWords s.d d l (w l) (ps l)) f) :
    Completes i s Group.noVectorsFlags fun t =>
      VecIs s t d w (fun k l => (ps l).getD k 0)
      ∧ ∀ l, l < 32 → t.me.flags l = if s.active.getLsbD l then s.me.flags l ||| f l else s.me.flags l := by
  refine simple_completes h e (fun g h e => ?_) ?_ ?_ fun t m => ⟨?_, ?_⟩
  · have := congrArg Group.noVectorsFlags e
    exact this
  · rw [k, writeLanes_eq]
  · rw [k, writeLanes_eq]; rfl
  · intro r j l hj hl
    have v := writeLanes_vec s.stamp w ps f (d := d) r j l hj hl
    rw [← show t.me.vword r j l = (s.stamp.writeLanes _ f).me.vword r j l from ?_] at v
    · exact v
    · have := congrArg Group.vregs m
      rw [k] at this
      exact congrArg (fun x => sget 0 x (vkey r j l)) this
  · intro l hl
    have v := writeLanes_flags s.stamp (fun l => tangentWords s.d d l (w l) (ps l)) f l hl
    rw [← show t.me.flags l = (s.stamp.writeLanes _ f).me.flags l from ?_] at v
    · exact v
    · have := congrArg Group.tflags m
      rw [k] at this
      exact congrArg (fun x => sget 0 x l) this

/-- A result in the active lanes that sets no flags. -/
theorem words_complete {i : Instr} {g : State → State} {s : State} {d : Nat} {w : Nat → Word} {ps : Nat → List Word}
    (h : Free i s) (e : exec i s = simple i g s)
    (k : g s.stamp = s.stamp.writeLanes (fun l => tangentWords s.d d l (w l) (ps l)) fun _ => 0) :
    Completes i s Group.noVectors fun t => VecIs s t d w fun k l => (ps l).getD k 0 := by
  have fl := flags_none s.stamp fun l => tangentWords s.d d l (w l) (ps l)
  refine simple_completes h e (fun g h e => congrArg Group.noVectors e) ?_ ?_ fun t m => ?_
  · rw [k, writeLanes_eq]
  · rw [k, writeLanes_eq, fl]; rfl
  · intro r j l hj hl
    have v := writeLanes_vec s.stamp w ps (fun _ => 0) (d := d) r j l hj hl
    rw [← show t.me.vword r j l = (s.stamp.writeLanes _ fun _ => 0).me.vword r j l from ?_] at v
    · exact v
    · have := congrArg Group.vregs m
      rw [k] at this
      exact congrArg (fun x => sget 0 x (vkey r j l)) this

/-- A scalar result. -/
theorem scalar_completes {i : Instr} {g : State → State} {s : State} {d : Nat} {w : Word} (h : Free i s)
    (e : exec i s = simple i g s) (k : g s.stamp = s.stamp.wrS d w) :
    Completes i s Group.noScalars fun t => ScalarIs s t d w := by
  refine simple_completes h e (fun g h e => congrArg Group.noScalars e) (by rw [k]; rfl) (by rw [k]; rfl) fun t m => ?_
  have r : ∀ j, t.sreg j = (s.stamp.wrS d w).sreg j := fun j => by
    have := congrArg Group.sregs m
    rw [k] at this
    exact congrArg (fun x => sget 0 x j) this
  have v := wrS_scalar s.stamp d w
  exact ⟨(r d).trans v.1, fun j hj => (r j).trans (v.2 j hj)⟩

/-- A lane predicate as the result. -/
theorem pred_completes {i : Instr} {g : State → State} {s : State} {d : Nat} {v : Nat → Bool} (h : Free i s)
    (e : exec i s = simple i g s) (k : g s.stamp = s.stamp.predLanes d v) :
    Completes i s Group.noPreds fun t => PredIs s t d v := by
  have eq : s.stamp.predLanes d v = { s.stamp with me := { s.stamp.me with preds := (s.stamp.predLanes d v).me.preds } } := by
    simp only [State.predLanes, State.wrP, State.modMe, Group.putP]
    split <;> rfl
  refine simple_completes h e (fun g h e => congrArg Group.noPreds e) (by rw [k, eq]) (by rw [k, eq]; rfl) fun t m => ?_
  intro p l hl
  have r : t.me.pred p = (s.stamp.predLanes d v).me.pred p := by
    have := congrArg Group.preds m
    rw [k] at this
    exact congrArg (fun x => if p = 0 then BitVec.allOnes 32 else sget 0 x p) this
  rw [r]
  exact predLanes_pred s.stamp d v p l hl

/-- A uniform predicate as the result. -/
theorem uniform_completes {i : Instr} {g : State → State} {s : State} {d : Nat} {v : Bool} (h : Free i s)
    (e : exec i s = simple i g s) (k : g s.stamp = s.stamp.wrQ d v) :
    Completes i s Group.noQs fun t => UniformIs s t d v := by
  have eq : s.stamp.wrQ d v = { s.stamp with me := { s.stamp.me with qs := (s.stamp.wrQ d v).me.qs } } := by
    simp only [State.wrQ, State.modMe]
    split <;> rfl
  refine simple_completes h e (fun g h e => congrArg Group.noQs e) (by rw [k, eq]) (by rw [k, eq]; rfl) fun t m => ?_
  intro j hj
  have r : t.me.q j = (s.stamp.wrQ d v).me.q j := by
    have := congrArg Group.qs m
    rw [k] at this
    exact congrArg (fun (x : BitVec 8) => j == 0 || x.getLsbD j) this
  rw [r]
  exact wrQ_uniform s.stamp d v j hj

/-- Nothing written. -/
theorem nothing_completes {i : Instr} {g : State → State} {s : State} (h : Free i s) (e : exec i s = simple i g s)
    (k : g s.stamp = s.stamp) : Completes i s id fun _ => True :=
  simple_completes h e (fun _ _ e => e) (by rw [k]) (by rw [k]; rfl) fun _ _ => trivial

/-- The words and planes of a vector result may be read by other expressions that agree where it is written. -/
theorem VecIs.congr {s t : State} {d : Nat} {w w' : Nat → Word} {p p' : Nat → Nat → Word} (h : VecIs s t d w p)
    (e : ∀ l, l < 32 → s.active.getLsbD l → w l = w' l)
    (f : ∀ k l, k < s.d → l < 32 → s.active.getLsbD l → p k l = p' k l) : VecIs s t d w' p' := by
  intro r k l hk hl
  rw [h r k l hk hl]
  by_cases c : r = d ∧ s.active.getLsbD l = true
  · rw [if_pos c, if_pos c]
    by_cases h0 : k = 0
    · rw [if_pos h0, if_pos h0, e l hl c.2]
    · rw [if_neg h0, if_neg h0, f (k - 1) l (by omega) hl c.2]
  · rw [if_neg c, if_neg c]

/-- The post-state of a completion weakened. -/
theorem Completes.mono {i : Instr} {s : State} {r : Group → Group} {P Q : State → Prop} (h : Completes i s r P)
    (m : ∀ t, P t → Q t) : Completes i s r Q := by
  obtain ⟨u, a, b, c, d⟩ := h
  exact ⟨u, a, b, c, m _ d⟩

end Sys2Proof.Machine
end

