-- ==== Sys2Proof/Laws/Memory.lean ====
section
/-!
SUPPORT. Memory read after a write, the canonical form that every memory operation keeps, and what a memory instruction or an engine's
leaves behind at issue.
-/
namespace Sys2Proof.Machine

/-! ## Bytes -/

@[simp] theorem rdByte_wrByte (s : State) (k a : Nat) (b : Byte) :
    (s.wrByte k b).rdByte a = if a = k then b else s.rdByte a := sget_sset

/-- Bytes written are read back, and every other byte is as before. -/
theorem rdByte_wrBytes (s : State) (k a : Nat) (bs : List Byte) :
    (s.wrBytes k bs).rdByte a = if k ≤ a ∧ a < k + bs.length then bs.getD (a - k) 0 else s.rdByte a := by
  induction bs generalizing s k with
  | nil => simp only [State.wrBytes, List.length_nil]; rw [if_neg (by omega)]
  | cons b rest ih =>
    simp only [State.wrBytes, List.length_cons]
    rw [ih, rdByte_wrByte]
    by_cases e : a = k
    · subst e
      rw [if_neg (by omega), if_pos rfl, if_pos (by omega)]
      simp
    · by_cases c : k + 1 ≤ a ∧ a < k + 1 + rest.length
      · rw [if_pos c, if_pos (by omega), show a - k = a - (k + 1) + 1 by omega]
        simp
      · rw [if_neg c, if_neg e, if_neg (by omega)]

/-- Writing bytes changes memory alone. -/
theorem wrBytes_eq (s : State) (k : Nat) (bs : List Byte) : s.wrBytes k bs = { s with memory := (s.wrBytes k bs).memory } := by
  induction bs generalizing s k with
  | nil => rfl
  | cons b rest ih => simp only [State.wrBytes]; rw [ih]; rfl

theorem wf_wrByte {s : State} {k : Nat} {b : Byte} (h : Canonical s) : Canonical (s.wrByte k b) := swf_sset h

theorem wf_wrBytes {s : State} {k : Nat} {bs : List Byte} (h : Canonical s) : Canonical (s.wrBytes k bs) := by
  induction bs generalizing s k with
  | nil => exact h
  | cons b rest ih => exact ih (wf_wrByte h)

theorem wf_wrNat {s : State} {k n v : Nat} (h : Canonical s) : Canonical (s.wrNat k n v) := wf_wrBytes h

/-- A store at its home writes its bytes; it also clears poison and wakes watches. -/
theorem storeBytes_memory (s : State) (k : Nat) (bs : List Byte) : (s.storeBytes k bs).memory = (s.wrBytes k bs).memory := rfl

theorem wf_storeBytes {s : State} {k : Nat} {bs : List Byte} (h : Canonical s) : Canonical (s.storeBytes k bs) :=
  wf_wrBytes (k := k) (bs := bs) h

theorem wf_storeNat {s : State} {k n v : Nat} (h : Canonical s) : Canonical (s.storeNat k n v) := wf_storeBytes h

theorem wf_wrEach {s : State} {bs : List (Nat × Byte)} (h : Canonical s) :
    Canonical (bs.foldl (fun (s : State) kb => s.wrByte kb.1 kb.2) s) := by
  induction bs generalizing s with
  | nil => exact h
  | cons b rest ih => exact ih (wf_wrByte h)

theorem wf_storeAt {s : State} {bs : List (Nat × Byte)} (h : Canonical s) : Canonical (s.storeAt bs) := wf_wrEach (bs := bs) h

/-- The device's writes keep the form, and change memory and poison alone. -/
theorem deviceRun_keeps {grid ctx n : Nat} : ∀ {s t : State} {va : Nat} {bs : List Byte}, s.deviceRun grid ctx n va bs = some t →
    t = { s with memory := t.memory, poison := t.poison } ∧ (Canonical s → Canonical t) := by
  induction n with
  | zero => intro s t va bs e; cases e; exact ⟨rfl, id⟩
  | succ n ih =>
    intro s t va bs e
    simp only [State.deviceRun] at e
    split at e
    · cases e; exact ⟨rfl, id⟩
    · split at e
      · have := ih e
        exact ⟨by rw [this.1]; rfl, fun h => this.2 (wf_wrBytes (s := s) h)⟩
      · cases e

theorem deviceWrite_keeps {s t : State} {grid ctx va : Nat} {bs : List Byte} (e : s.deviceWrite grid ctx va bs = some t) :
    t = { s with memory := t.memory, poison := t.poison } ∧ (Canonical s → Canonical t) := by
  unfold State.deviceWrite at e
  split at e
  · exact deviceRun_keeps e
  · cases e

/-- What the device writes into a context keeps the form. -/
theorem wf_deviceWrite {s t : State} {grid ctx va : Nat} {bs : List Byte} (h : Canonical s)
    (e : s.deviceWrite grid ctx va bs = some t) : Canonical t := (deviceWrite_keeps e).2 h

theorem deviceWrite_eq {s t : State} {grid ctx va : Nat} {bs : List Byte} (e : s.deviceWrite grid ctx va bs = some t) :
    t = { s with memory := t.memory, poison := t.poison } := (deviceWrite_keeps e).1

/-- A walk depends on memory, poison and the stacks alone. -/
theorem walkFrom_of {s : State} {gs : List Group} {fs : List FaultRec} {n : BitVec 32} {va level : Nat} :
    ∀ {table : Nat}, ({ s with groups := gs, faults := fs, fqprod := n } : State).walkFrom va level table = s.walkFrom va level table := by
  have e : ∀ l t, ({ s with groups := gs, faults := fs, fqprod := n } : State).walkLevel va l t = s.walkLevel va l t := fun _ _ => rfl
  induction level with
  | zero => intro table; simp only [State.walkFrom, e]
  | succ l ih => intro table; simp only [State.walkFrom, e, ih]

theorem deviceVa_of {s : State} {grid ctx va : Nat} {need : Need} {gs : List Group} {fs : List FaultRec} {n : BitVec 32} :
    ({ s with groups := gs, faults := fs, fqprod := n } : State).deviceVa grid ctx va need = s.deviceVa grid ctx va need := by
  have w : ({ s with groups := gs, faults := fs, fqprod := n } : State).walk ctx va = s.walk ctx va := by
    unfold State.walk
    simp only [walkFrom_of]
    rfl
  have p : ({ s with groups := gs, faults := fs, fqprod := n } : State).page ctx va = s.page ctx va := by
    unfold State.page State.walkNow
    simp only [walkFrom_of, w]
    rfl
  unfold State.deviceVa
  rw [p]
  rfl

/-- Bytes written do not depend on the groups, the faults under way or the ring's count. -/
theorem wrBytes_of {gs : List Group} {fs : List FaultRec} {n : BitVec 32} {bs : List Byte} : ∀ {s : State} {k : Nat},
    ({ s with groups := gs, faults := fs, fqprod := n } : State).wrBytes k bs
      = { s.wrBytes k bs with groups := gs, faults := fs, fqprod := n } := by
  induction bs with
  | nil => intro s k; rfl
  | cons b rest ih => intro s k; exact ih (s := s.wrByte k b)

/-- Where the device writes does not depend on the groups, the faults under way or the ring's count. -/
theorem deviceRun_of {grid ctx k : Nat} {gs : List Group} {fs : List FaultRec} {n : BitVec 32} :
    ∀ {s : State} {va : Nat} {bs : List Byte}, ({ s with groups := gs, faults := fs, fqprod := n } : State).deviceRun grid ctx k va bs
      = (s.deviceRun grid ctx k va bs).map fun t => { t with groups := gs, faults := fs, fqprod := n } := by
  induction k with
  | zero => intro s va bs; rfl
  | succ k ih =>
    intro s va bs
    simp only [State.deviceRun]
    have v : ({ s with groups := gs, faults := fs, fqprod := n } : State).deviceVa grid ctx va Need.store
      = s.deviceVa grid ctx va Need.store := deviceVa_of
    rw [v]
    split
    · rfl
    · cases s.deviceVa grid ctx va Need.store with
      | none => rfl
      | some key =>
        have w : ({ s with groups := gs, faults := fs, fqprod := n } : State).wrPage key (bs.take (4096 - va % 4096))
            = { s.wrPage key (bs.take (4096 - va % 4096)) with groups := gs, faults := fs, fqprod := n } := by
          unfold State.wrPage
          rw [wrBytes_of]
          rfl
        simp only [w]
        exact ih

theorem deviceWrite_of {s : State} {grid ctx va : Nat} {bs : List Byte} {gs : List Group} {fs : List FaultRec} {n : BitVec 32} :
    ({ s with groups := gs, faults := fs, fqprod := n } : State).deviceWrite grid ctx va bs
      = (s.deviceWrite grid ctx va bs).map fun t => { t with groups := gs, faults := fs, fqprod := n } := by
  unfold State.deviceWrite
  have v : ({ s with groups := gs, faults := fs, fqprod := n } : State).deviceVa grid ctx va Need.store
    = s.deviceVa grid ctx va Need.store := deviceVa_of
  rw [v]
  cases s.deviceVa grid ctx va Need.store with
  | none => rfl
  | some k => exact deviceRun_of

/-! ## Parked fragments in a context slot -/

theorem writeParts_eq {grid ctx : Nat} {xs : List (Nat × List Byte)} : ∀ {s t : State}, s.writeParts grid ctx xs = some t →
    t = { s with memory := t.memory, poison := t.poison } ∧ (Canonical s → Canonical t) := by
  induction xs with
  | nil => intro s t e; cases e; exact ⟨rfl, id⟩
  | cons x rest ih =>
    intro s t e
    simp only [State.writeParts] at e
    split at e
    · next u w =>
      have := ih e
      refine ⟨?_, fun h => this.2 (wf_deviceWrite h w)⟩
      rw [this.1, deviceWrite_eq w]
    · cases e

theorem writeParts_of {grid ctx : Nat} {xs : List (Nat × List Byte)} {gs : List Group} {fs : List FaultRec} {n : BitVec 32} :
    ∀ {s : State}, ({ s with groups := gs, faults := fs, fqprod := n } : State).writeParts grid ctx xs
      = (s.writeParts grid ctx xs).map fun t => { t with groups := gs, faults := fs, fqprod := n } := by
  induction xs with
  | nil => intro s; rfl
  | cons x rest ih =>
    intro s
    simp only [State.writeParts]
    rw [deviceWrite_of]
    cases s.deviceWrite grid ctx x.1 x.2 with
    | none => rfl
    | some u => exact ih (s := u)

/-- Writing a group's parked fragments changes memory and poison alone, and keeps the form. -/
theorem writeParked_eq {s t : State} {g : Group} (e : s.writeParked g = some t) :
    t = { s with memory := t.memory, poison := t.poison } ∧ (Canonical s → Canonical t) := writeParts_eq e

theorem writeParked_of {s : State} {g : Group} {gs : List Group} {fs : List FaultRec} {n : BitVec 32} :
    ({ s with groups := gs, faults := fs, fqprod := n } : State).writeParked g
      = (s.writeParked g).map fun t => { t with groups := gs, faults := fs, fqprod := n } := writeParts_of

/-- What may come of bringing a slot up to date: nothing, a wait for a stack, its parked fragments written, or the context damaged. -/
theorem keepParked_cases (old s : State) (gs : Nat) :
    State.keepParked old s gs = s
      ∨ ∃ g, s.anyGroup? gs = some g ∧ g.saved = false ∧
          ((s.parkedWait g = true ∧ State.keepParked old s gs = { s with late := s.late ++ [.parked g.gs] })
            ∨ (∃ t, s.writeParked g = some t ∧ State.keepParked old s gs = t)
            ∨ (s.writeParked g = none ∧ State.keepParked old s gs = s.mustWriteParked g)) := by
  cases e : s.anyGroup? gs with
  | none => left; unfold State.keepParked; rw [e]
  | some g =>
    by_cases h : (g.saved || (match old.anyGroup? gs with | some g => g.parked | none => []) == g.parked) = true
    · left; unfold State.keepParked; rw [e]; exact if_pos h
    · refine .inr ⟨g, rfl, by cases v : g.saved <;> simp_all, ?_⟩
      have k : State.keepParked old s gs = s.mustWriteParked g := by unfold State.keepParked; rw [e]; exact if_neg h
      rw [k]
      by_cases p : s.parkedWait g = true
      · exact .inl ⟨p, by unfold State.mustWriteParked; rw [if_pos p]⟩
      cases w : s.writeParked g with
      | some t => exact .inr (.inl ⟨t, rfl, by unfold State.mustWriteParked; rw [if_neg p, w]⟩)
      | none => exact .inr (.inr ⟨rfl, rfl⟩)

/-! ## Issue of an operation -/

/-- PC goes on; nothing else changes. -/
theorem advance_eq (s : State) : s.advance = { s with fr := { s.fr with pc := s.nextPc } } := by
  unfold State.advance State.nextPc
  have e : ∀ (o : Option Captured), (match o with | some _ => s | none => s.modFr fun f => { f with pc := f.pc + 4 }) =
    { s with fr := { s.fr with pc := match o with | some _ => s.fr.pc | none => s.fr.pc + 4 } } := by intro o; cases o <;> rfl
  exact e s.ov

/-- What an instruction that opens one operation leaves. -/
theorem opens_of {i : Instr} {s : State} {lanes : Mask} {nums : List Nat} {todo : List Access} {cap : Captured}
  (h : Free i s) {g : State → Ran} (e : exec i s = issue i g s) (hc : cap.instr = i ∧ cap.act = lanes)
  (k : g s.stamp = .done (s.stamp.advance.openOp i cap todo nums)) : Opens i s lanes nums todo := by
  refine ⟨s.stamp.advance.openOp i cap todo nums, 
    { id := s.nextOp, gs := s.me.gs, frag := s.fr.id, path := (shape i).path, cap := cap, region := s.me.race.rg, todo := todo
      got := [], nums := nums, begun := false, complete := false, holds := [], suspended := none, waits := none
      issuedAt := s.now, before := s.me.race.before, leaves := s.now, later := []
      rel := if (atomicKind i).isSome && decide (2 ≤ atomOrd (nums.headD 0)) then s.stamp.me.releaseAt (atomScope (nums.headD 0))
        else s.me.lastRelease },
    ?_, ?_, ?_, ?_, trivial, ?_, rfl, rfl, rfl, rfl, hc.1, hc.2, ?_, rfl, rfl, rfl, rfl, rfl, ?_⟩
  · rw [e]; exact issue_free h k
  · rw [advance_eq]; rfl
  · rw [advance_eq]; rfl
  · rw [advance_eq]; rfl
  · rw [advance_eq]; exact stamp_groups s
  · rfl
  · rw [advance_eq]
    exact List.getLast?_concat ..

/-- An access of the LS path whose lanes all reach memory opens one operation, past the instruction; an atomic's order follows. -/
theorem startLs_reached (s : State) (i : Instr) (f : MemForm) (todo : List Access) (hr : s.reached f = todo) (hu : s.unreached f = [])
   (hn : todo ≠ []) : s.startLs i (s.capture i) f =
     (s.advance.openOp i { s.capture i with act := f.lanes } todo f.nums).modMe fun g => g.orderRegion i (f.nums.headD 0) := by
  unfold State.startLs
  simp only [hr, hu]
  have : todo.isEmpty = false := by cases todo <;> simp_all
  rw [this]
  have e : f.lanes &&& ~~~(0#32) = f.lanes := by
    apply BitVec.eq_of_getLsbD_eq; intro j hj; rw [BitVec.getLsbD_and, BitVec.getLsbD_not, BitVec.getLsbD_zero]; simp [hj]
  have z : (if (f.one && !List.isEmpty (α := LaneFault) []) = true then f.lanes else maskOf (([] : List LaneFault).map (·.1))) = 0#32 := by
    simp [maskOf]
  simp only [Bool.false_eq_true, if_false]
  show (s.advance.openOp i { s.capture i with act := f.lanes &&& ~~~_ } todo f.nums).modMe _ = _
  rw [show (if (f.one && !List.isEmpty (α := Nat × Nat × Option NoAccess × Nat) []) = true then f.lanes else maskOf (([] : List (Nat × Nat × Option NoAccess × Nat)).map (·.1))) = 0#32 from z, e]

end Sys2Proof.Machine
end

