-- ==== Sys2Proof/Laws/State.lean ====
section
/-!
SUPPORT. What each update of the state does to each of its fields.
-/
namespace Sys2Proof.Machine

variable (s : State)

@[simp] theorem modMe_me (f : Group → Group) : (s.modMe f).me = f s.me := rfl
@[simp] theorem modMe_fr (f : Group → Group) : (s.modMe f).fr = s.fr := rfl
@[simp] theorem modMe_live (f : Group → Group) : (s.modMe f).live = s.live := rfl
@[simp] theorem modMe_groups (f : Group → Group) : (s.modMe f).groups = s.groups := rfl
@[simp] theorem modMe_ov (f : Group → Group) : (s.modMe f).ov = s.ov := rfl
@[simp] theorem modMe_ray (f : Group → Group) : (s.modMe f).ray = s.ray := rfl
@[simp] theorem modMe_rayLive (f : Group → Group) : (s.modMe f).rayLive = s.rayLive := rfl
@[simp] theorem modMe_rays (f : Group → Group) : (s.modMe f).rays = s.rays := rfl
@[simp] theorem modMe_codes (f : Group → Group) : (s.modMe f).codes = s.codes := rfl
@[simp] theorem modMe_ops (f : Group → Group) : (s.modMe f).ops = s.ops := rfl
@[simp] theorem modMe_nextOp (f : Group → Group) : (s.modMe f).nextOp = s.nextOp := rfl
@[simp] theorem modMe_teams (f : Group → Group) : (s.modMe f).teams = s.teams := rfl
@[simp] theorem modMe_nextTeam (f : Group → Group) : (s.modMe f).nextTeam = s.nextTeam := rfl
@[simp] theorem modMe_grids (f : Group → Group) : (s.modMe f).grids = s.grids := rfl
@[simp] theorem modMe_nextGrid (f : Group → Group) : (s.modMe f).nextGrid = s.nextGrid := rfl
@[simp] theorem modMe_clusterBarriers (f : Group → Group) : (s.modMe f).clusterBarriers = s.clusterBarriers := rfl
@[simp] theorem modMe_tiles (f : Group → Group) : (s.modMe f).tiles = s.tiles := rfl
@[simp] theorem modMe_landings (f : Group → Group) : (s.modMe f).landings = s.landings := rfl
@[simp] theorem modMe_memory (f : Group → Group) : (s.modMe f).memory = s.memory := rfl
@[simp] theorem modMe_poison (f : Group → Group) : (s.modMe f).poison = s.poison := rfl
@[simp] theorem modMe_tags (f : Group → Group) : (s.modMe f).tags = s.tags := rfl
@[simp] theorem modMe_syncs (f : Group → Group) : (s.modMe f).syncs = s.syncs := rfl
@[simp] theorem modMe_lastReleases (f : Group → Group) : (s.modMe f).lastReleases = s.lastReleases := rfl
@[simp] theorem modMe_commits (f : Group → Group) : (s.modMe f).commits = s.commits := rfl
@[simp] theorem modMe_recent (f : Group → Group) : (s.modMe f).recent = s.recent := rfl
@[simp] theorem modMe_l1 (f : Group → Group) : (s.modMe f).l1 = s.l1 := rfl
@[simp] theorem modMe_icache (f : Group → Group) : (s.modMe f).icache = s.icache := rfl
@[simp] theorem modMe_l2i (f : Group → Group) : (s.modMe f).l2i = s.l2i := rfl
@[simp] theorem modMe_fills (f : Group → Group) : (s.modMe f).fills = s.fills := rfl
@[simp] theorem modMe_tlb (f : Group → Group) : (s.modMe f).tlb = s.tlb := rfl
@[simp] theorem modMe_walks (f : Group → Group) : (s.modMe f).walks = s.walks := rfl
@[simp] theorem modMe_unit (f : Group → Group) : (s.modMe f).unit = s.unit := rfl
@[simp] theorem modMe_now (f : Group → Group) : (s.modMe f).now = s.now := rfl
@[simp] theorem modMe_counted (f : Group → Group) : (s.modMe f).counted = s.counted := rfl
@[simp] theorem modMe_tick (f : Group → Group) : (s.modMe f).tick = s.tick := rfl
@[simp] theorem modMe_turn (f : Group → Group) : (s.modMe f).turn = s.turn := rfl
@[simp] theorem modMe_inputs (f : Group → Group) : (s.modMe f).inputs = s.inputs := rfl
@[simp] theorem modMe_lastRegion (f : Group → Group) : (s.modMe f).lastRegion = s.lastRegion := rfl
@[simp] theorem modMe_starts (f : Group → Group) : (s.modMe f).starts = s.starts := rfl
@[simp] theorem modMe_lqtab (f : Group → Group) : (s.modMe f).lqtab = s.lqtab := rfl
@[simp] theorem modMe_ctxtab (f : Group → Group) : (s.modMe f).ctxtab = s.ctxtab := rfl
@[simp] theorem modMe_prcnt (f : Group → Group) : (s.modMe f).prcnt = s.prcnt := rfl
@[simp] theorem modMe_tva (f : Group → Group) : (s.modMe f).tva = s.tva := rfl
@[simp] theorem modMe_tctx (f : Group → Group) : (s.modMe f).tctx = s.tctx := rfl
@[simp] theorem modMe_tlbBusy (f : Group → Group) : (s.modMe f).tlbBusy = s.tlbBusy := rfl
@[simp] theorem modMe_tlbRun (f : Group → Group) : (s.modMe f).tlbRun = s.tlbRun := rfl
@[simp] theorem modMe_icva (f : Group → Group) : (s.modMe f).icva = s.icva := rfl
@[simp] theorem modMe_icctx (f : Group → Group) : (s.modMe f).icctx = s.icctx := rfl
@[simp] theorem modMe_icBusy (f : Group → Group) : (s.modMe f).icBusy = s.icBusy := rfl
@[simp] theorem modMe_icRun (f : Group → Group) : (s.modMe f).icRun = s.icRun := rfl
@[simp] theorem modMe_mesh (f : Group → Group) : (s.modMe f).mesh = s.mesh := rfl
@[simp] theorem modMe_meshWritten (f : Group → Group) : (s.modMe f).meshWritten = s.meshWritten := rfl
@[simp] theorem modMe_ptpLock (f : Group → Group) : (s.modMe f).ptpLock = s.ptpLock := rfl
@[simp] theorem modMe_ptpOffset (f : Group → Group) : (s.modMe f).ptpOffset = s.ptpOffset := rfl
@[simp] theorem modMe_ptpGood (f : Group → Group) : (s.modMe f).ptpGood = s.ptpGood := rfl
@[simp] theorem modMe_wdog (f : Group → Group) : (s.modMe f).wdog = s.wdog := rfl
@[simp] theorem modMe_fqbase (f : Group → Group) : (s.modMe f).fqbase = s.fqbase := rfl
@[simp] theorem modMe_fqEn (f : Group → Group) : (s.modMe f).fqEn = s.fqEn := rfl
@[simp] theorem modMe_fqLog (f : Group → Group) : (s.modMe f).fqLog = s.fqLog := rfl
@[simp] theorem modMe_fqprod (f : Group → Group) : (s.modMe f).fqprod = s.fqprod := rfl
@[simp] theorem modMe_fqcons (f : Group → Group) : (s.modMe f).fqcons = s.fqcons := rfl
@[simp] theorem modMe_faults (f : Group → Group) : (s.modMe f).faults = s.faults := rfl
@[simp] theorem modMe_fqSignalled (f : Group → Group) : (s.modMe f).fqSignalled = s.fqSignalled := rfl
@[simp] theorem modMe_budgets (f : Group → Group) : (s.modMe f).budgets = s.budgets := rfl
@[simp] theorem modMe_charges (f : Group → Group) : (s.modMe f).charges = s.charges := rfl
@[simp] theorem modMe_window (f : Group → Group) : (s.modMe f).window = s.window := rfl
@[simp] theorem modMe_clusters (f : Group → Group) : (s.modMe f).clusters = s.clusters := rfl
@[simp] theorem modMe_cecnt (f : Group → Group) : (s.modMe f).cecnt = s.cecnt := rfl
@[simp] theorem modMe_uecnt (f : Group → Group) : (s.modMe f).uecnt = s.uecnt := rfl
@[simp] theorem modMe_ueaddr (f : Group → Group) : (s.modMe f).ueaddr = s.ueaddr := rfl
@[simp] theorem modMe_uesrc (f : Group → Group) : (s.modMe f).uesrc = s.uesrc := rfl
@[simp] theorem modMe_ueSignalled (f : Group → Group) : (s.modMe f).ueSignalled = s.ueSignalled := rfl
@[simp] theorem modMe_ready (f : Group → Group) : (s.modMe f).ready = s.ready := rfl
@[simp] theorem modMe_failed (f : Group → Group) : (s.modMe f).failed = s.failed := rfl
@[simp] theorem modMe_trip (f : Group → Group) : (s.modMe f).trip = s.trip := rfl
@[simp] theorem modMe_firmware (f : Group → Group) : (s.modMe f).firmware = s.firmware := rfl
@[simp] theorem modMe_firmwareNext (f : Group → Group) : (s.modMe f).firmwareNext = s.firmwareNext := rfl
@[simp] theorem modMe_firmwareKept (f : Group → Group) : (s.modMe f).firmwareKept = s.firmwareKept := rfl
@[simp] theorem modMe_mctp (f : Group → Group) : (s.modMe f).mctp = s.mctp := rfl
@[simp] theorem modMe_msix (f : Group → Group) : (s.modMe f).msix = s.msix := rfl
@[simp] theorem modMe_preq (f : Group → Group) : (s.modMe f).preq = s.preq := rfl
@[simp] theorem modMe_lastQueue (f : Group → Group) : (s.modMe f).lastQueue = s.lastQueue := rfl
@[simp] theorem modMe_arrivals (f : Group → Group) : (s.modMe f).arrivals = s.arrivals := rfl
@[simp] theorem modMe_rung (f : Group → Group) : (s.modMe f).rung = s.rung := rfl
@[simp] theorem modMe_bells (f : Group → Group) : (s.modMe f).bells = s.bells := rfl
@[simp] theorem modMe_belated (f : Group → Group) : (s.modMe f).belated = s.belated := rfl
@[simp] theorem modMe_late (f : Group → Group) : (s.modMe f).late = s.late := rfl

@[simp] theorem modFr_me (f : Frag → Frag) : (s.modFr f).me = s.me := rfl
@[simp] theorem modFr_fr (f : Frag → Frag) : (s.modFr f).fr = f s.fr := rfl
@[simp] theorem modFr_live (f : Frag → Frag) : (s.modFr f).live = s.live := rfl
@[simp] theorem modFr_groups (f : Frag → Frag) : (s.modFr f).groups = s.groups := rfl
@[simp] theorem modFr_ov (f : Frag → Frag) : (s.modFr f).ov = s.ov := rfl
@[simp] theorem modFr_ray (f : Frag → Frag) : (s.modFr f).ray = s.ray := rfl
@[simp] theorem modFr_rayLive (f : Frag → Frag) : (s.modFr f).rayLive = s.rayLive := rfl
@[simp] theorem modFr_rays (f : Frag → Frag) : (s.modFr f).rays = s.rays := rfl
@[simp] theorem modFr_codes (f : Frag → Frag) : (s.modFr f).codes = s.codes := rfl
@[simp] theorem modFr_ops (f : Frag → Frag) : (s.modFr f).ops = s.ops := rfl
@[simp] theorem modFr_nextOp (f : Frag → Frag) : (s.modFr f).nextOp = s.nextOp := rfl
@[simp] theorem modFr_teams (f : Frag → Frag) : (s.modFr f).teams = s.teams := rfl
@[simp] theorem modFr_nextTeam (f : Frag → Frag) : (s.modFr f).nextTeam = s.nextTeam := rfl
@[simp] theorem modFr_grids (f : Frag → Frag) : (s.modFr f).grids = s.grids := rfl
@[simp] theorem modFr_nextGrid (f : Frag → Frag) : (s.modFr f).nextGrid = s.nextGrid := rfl
@[simp] theorem modFr_clusterBarriers (f : Frag → Frag) : (s.modFr f).clusterBarriers = s.clusterBarriers := rfl
@[simp] theorem modFr_tiles (f : Frag → Frag) : (s.modFr f).tiles = s.tiles := rfl
@[simp] theorem modFr_landings (f : Frag → Frag) : (s.modFr f).landings = s.landings := rfl
@[simp] theorem modFr_memory (f : Frag → Frag) : (s.modFr f).memory = s.memory := rfl
@[simp] theorem modFr_poison (f : Frag → Frag) : (s.modFr f).poison = s.poison := rfl
@[simp] theorem modFr_tags (f : Frag → Frag) : (s.modFr f).tags = s.tags := rfl
@[simp] theorem modFr_syncs (f : Frag → Frag) : (s.modFr f).syncs = s.syncs := rfl
@[simp] theorem modFr_lastReleases (f : Frag → Frag) : (s.modFr f).lastReleases = s.lastReleases := rfl
@[simp] theorem modFr_commits (f : Frag → Frag) : (s.modFr f).commits = s.commits := rfl
@[simp] theorem modFr_recent (f : Frag → Frag) : (s.modFr f).recent = s.recent := rfl
@[simp] theorem modFr_l1 (f : Frag → Frag) : (s.modFr f).l1 = s.l1 := rfl
@[simp] theorem modFr_icache (f : Frag → Frag) : (s.modFr f).icache = s.icache := rfl
@[simp] theorem modFr_l2i (f : Frag → Frag) : (s.modFr f).l2i = s.l2i := rfl
@[simp] theorem modFr_fills (f : Frag → Frag) : (s.modFr f).fills = s.fills := rfl
@[simp] theorem modFr_tlb (f : Frag → Frag) : (s.modFr f).tlb = s.tlb := rfl
@[simp] theorem modFr_walks (f : Frag → Frag) : (s.modFr f).walks = s.walks := rfl
@[simp] theorem modFr_unit (f : Frag → Frag) : (s.modFr f).unit = s.unit := rfl
@[simp] theorem modFr_now (f : Frag → Frag) : (s.modFr f).now = s.now := rfl
@[simp] theorem modFr_counted (f : Frag → Frag) : (s.modFr f).counted = s.counted := rfl
@[simp] theorem modFr_tick (f : Frag → Frag) : (s.modFr f).tick = s.tick := rfl
@[simp] theorem modFr_turn (f : Frag → Frag) : (s.modFr f).turn = s.turn := rfl
@[simp] theorem modFr_inputs (f : Frag → Frag) : (s.modFr f).inputs = s.inputs := rfl
@[simp] theorem modFr_lastRegion (f : Frag → Frag) : (s.modFr f).lastRegion = s.lastRegion := rfl
@[simp] theorem modFr_starts (f : Frag → Frag) : (s.modFr f).starts = s.starts := rfl
@[simp] theorem modFr_lqtab (f : Frag → Frag) : (s.modFr f).lqtab = s.lqtab := rfl
@[simp] theorem modFr_ctxtab (f : Frag → Frag) : (s.modFr f).ctxtab = s.ctxtab := rfl
@[simp] theorem modFr_prcnt (f : Frag → Frag) : (s.modFr f).prcnt = s.prcnt := rfl
@[simp] theorem modFr_tva (f : Frag → Frag) : (s.modFr f).tva = s.tva := rfl
@[simp] theorem modFr_tctx (f : Frag → Frag) : (s.modFr f).tctx = s.tctx := rfl
@[simp] theorem modFr_tlbBusy (f : Frag → Frag) : (s.modFr f).tlbBusy = s.tlbBusy := rfl
@[simp] theorem modFr_tlbRun (f : Frag → Frag) : (s.modFr f).tlbRun = s.tlbRun := rfl
@[simp] theorem modFr_icva (f : Frag → Frag) : (s.modFr f).icva = s.icva := rfl
@[simp] theorem modFr_icctx (f : Frag → Frag) : (s.modFr f).icctx = s.icctx := rfl
@[simp] theorem modFr_icBusy (f : Frag → Frag) : (s.modFr f).icBusy = s.icBusy := rfl
@[simp] theorem modFr_icRun (f : Frag → Frag) : (s.modFr f).icRun = s.icRun := rfl
@[simp] theorem modFr_mesh (f : Frag → Frag) : (s.modFr f).mesh = s.mesh := rfl
@[simp] theorem modFr_meshWritten (f : Frag → Frag) : (s.modFr f).meshWritten = s.meshWritten := rfl
@[simp] theorem modFr_ptpLock (f : Frag → Frag) : (s.modFr f).ptpLock = s.ptpLock := rfl
@[simp] theorem modFr_ptpOffset (f : Frag → Frag) : (s.modFr f).ptpOffset = s.ptpOffset := rfl
@[simp] theorem modFr_ptpGood (f : Frag → Frag) : (s.modFr f).ptpGood = s.ptpGood := rfl
@[simp] theorem modFr_wdog (f : Frag → Frag) : (s.modFr f).wdog = s.wdog := rfl
@[simp] theorem modFr_fqbase (f : Frag → Frag) : (s.modFr f).fqbase = s.fqbase := rfl
@[simp] theorem modFr_fqEn (f : Frag → Frag) : (s.modFr f).fqEn = s.fqEn := rfl
@[simp] theorem modFr_fqLog (f : Frag → Frag) : (s.modFr f).fqLog = s.fqLog := rfl
@[simp] theorem modFr_fqprod (f : Frag → Frag) : (s.modFr f).fqprod = s.fqprod := rfl
@[simp] theorem modFr_fqcons (f : Frag → Frag) : (s.modFr f).fqcons = s.fqcons := rfl
@[simp] theorem modFr_faults (f : Frag → Frag) : (s.modFr f).faults = s.faults := rfl
@[simp] theorem modFr_fqSignalled (f : Frag → Frag) : (s.modFr f).fqSignalled = s.fqSignalled := rfl
@[simp] theorem modFr_budgets (f : Frag → Frag) : (s.modFr f).budgets = s.budgets := rfl
@[simp] theorem modFr_charges (f : Frag → Frag) : (s.modFr f).charges = s.charges := rfl
@[simp] theorem modFr_window (f : Frag → Frag) : (s.modFr f).window = s.window := rfl
@[simp] theorem modFr_clusters (f : Frag → Frag) : (s.modFr f).clusters = s.clusters := rfl
@[simp] theorem modFr_cecnt (f : Frag → Frag) : (s.modFr f).cecnt = s.cecnt := rfl
@[simp] theorem modFr_uecnt (f : Frag → Frag) : (s.modFr f).uecnt = s.uecnt := rfl
@[simp] theorem modFr_ueaddr (f : Frag → Frag) : (s.modFr f).ueaddr = s.ueaddr := rfl
@[simp] theorem modFr_uesrc (f : Frag → Frag) : (s.modFr f).uesrc = s.uesrc := rfl
@[simp] theorem modFr_ueSignalled (f : Frag → Frag) : (s.modFr f).ueSignalled = s.ueSignalled := rfl
@[simp] theorem modFr_ready (f : Frag → Frag) : (s.modFr f).ready = s.ready := rfl
@[simp] theorem modFr_failed (f : Frag → Frag) : (s.modFr f).failed = s.failed := rfl
@[simp] theorem modFr_trip (f : Frag → Frag) : (s.modFr f).trip = s.trip := rfl
@[simp] theorem modFr_firmware (f : Frag → Frag) : (s.modFr f).firmware = s.firmware := rfl
@[simp] theorem modFr_firmwareNext (f : Frag → Frag) : (s.modFr f).firmwareNext = s.firmwareNext := rfl
@[simp] theorem modFr_firmwareKept (f : Frag → Frag) : (s.modFr f).firmwareKept = s.firmwareKept := rfl
@[simp] theorem modFr_mctp (f : Frag → Frag) : (s.modFr f).mctp = s.mctp := rfl
@[simp] theorem modFr_msix (f : Frag → Frag) : (s.modFr f).msix = s.msix := rfl
@[simp] theorem modFr_preq (f : Frag → Frag) : (s.modFr f).preq = s.preq := rfl
@[simp] theorem modFr_lastQueue (f : Frag → Frag) : (s.modFr f).lastQueue = s.lastQueue := rfl
@[simp] theorem modFr_arrivals (f : Frag → Frag) : (s.modFr f).arrivals = s.arrivals := rfl
@[simp] theorem modFr_rung (f : Frag → Frag) : (s.modFr f).rung = s.rung := rfl
@[simp] theorem modFr_bells (f : Frag → Frag) : (s.modFr f).bells = s.bells := rfl
@[simp] theorem modFr_belated (f : Frag → Frag) : (s.modFr f).belated = s.belated := rfl
@[simp] theorem modFr_late (f : Frag → Frag) : (s.modFr f).late = s.late := rfl

@[simp] theorem wrByte_me (k : Nat) (b : Byte) : (s.wrByte k b).me = s.me := rfl
@[simp] theorem wrByte_fr (k : Nat) (b : Byte) : (s.wrByte k b).fr = s.fr := rfl
@[simp] theorem wrByte_live (k : Nat) (b : Byte) : (s.wrByte k b).live = s.live := rfl
@[simp] theorem wrByte_groups (k : Nat) (b : Byte) : (s.wrByte k b).groups = s.groups := rfl
@[simp] theorem wrByte_ov (k : Nat) (b : Byte) : (s.wrByte k b).ov = s.ov := rfl
@[simp] theorem wrByte_ray (k : Nat) (b : Byte) : (s.wrByte k b).ray = s.ray := rfl
@[simp] theorem wrByte_rayLive (k : Nat) (b : Byte) : (s.wrByte k b).rayLive = s.rayLive := rfl
@[simp] theorem wrByte_rays (k : Nat) (b : Byte) : (s.wrByte k b).rays = s.rays := rfl
@[simp] theorem wrByte_codes (k : Nat) (b : Byte) : (s.wrByte k b).codes = s.codes := rfl
@[simp] theorem wrByte_ops (k : Nat) (b : Byte) : (s.wrByte k b).ops = s.ops := rfl
@[simp] theorem wrByte_nextOp (k : Nat) (b : Byte) : (s.wrByte k b).nextOp = s.nextOp := rfl
@[simp] theorem wrByte_teams (k : Nat) (b : Byte) : (s.wrByte k b).teams = s.teams := rfl
@[simp] theorem wrByte_nextTeam (k : Nat) (b : Byte) : (s.wrByte k b).nextTeam = s.nextTeam := rfl
@[simp] theorem wrByte_grids (k : Nat) (b : Byte) : (s.wrByte k b).grids = s.grids := rfl
@[simp] theorem wrByte_nextGrid (k : Nat) (b : Byte) : (s.wrByte k b).nextGrid = s.nextGrid := rfl
@[simp] theorem wrByte_clusterBarriers (k : Nat) (b : Byte) : (s.wrByte k b).clusterBarriers = s.clusterBarriers := rfl
@[simp] theorem wrByte_tiles (k : Nat) (b : Byte) : (s.wrByte k b).tiles = s.tiles := rfl
@[simp] theorem wrByte_landings (k : Nat) (b : Byte) : (s.wrByte k b).landings = s.landings := rfl
@[simp] theorem wrByte_memory (k : Nat) (b : Byte) : (s.wrByte k b).memory = sset blankByte s.memory k b := rfl
@[simp] theorem wrByte_poison (k : Nat) (b : Byte) : (s.wrByte k b).poison = s.poison := rfl
@[simp] theorem wrByte_tags (k : Nat) (b : Byte) : (s.wrByte k b).tags = s.tags := rfl
@[simp] theorem wrByte_syncs (k : Nat) (b : Byte) : (s.wrByte k b).syncs = s.syncs := rfl
@[simp] theorem wrByte_lastReleases (k : Nat) (b : Byte) : (s.wrByte k b).lastReleases = s.lastReleases := rfl
@[simp] theorem wrByte_commits (k : Nat) (b : Byte) : (s.wrByte k b).commits = s.commits := rfl
@[simp] theorem wrByte_recent (k : Nat) (b : Byte) : (s.wrByte k b).recent = s.recent := rfl
@[simp] theorem wrByte_l1 (k : Nat) (b : Byte) : (s.wrByte k b).l1 = s.l1 := rfl
@[simp] theorem wrByte_icache (k : Nat) (b : Byte) : (s.wrByte k b).icache = s.icache := rfl
@[simp] theorem wrByte_l2i (k : Nat) (b : Byte) : (s.wrByte k b).l2i = s.l2i := rfl
@[simp] theorem wrByte_fills (k : Nat) (b : Byte) : (s.wrByte k b).fills = s.fills := rfl
@[simp] theorem wrByte_tlb (k : Nat) (b : Byte) : (s.wrByte k b).tlb = s.tlb := rfl
@[simp] theorem wrByte_walks (k : Nat) (b : Byte) : (s.wrByte k b).walks = s.walks := rfl
@[simp] theorem wrByte_unit (k : Nat) (b : Byte) : (s.wrByte k b).unit = s.unit := rfl
@[simp] theorem wrByte_now (k : Nat) (b : Byte) : (s.wrByte k b).now = s.now := rfl
@[simp] theorem wrByte_counted (k : Nat) (b : Byte) : (s.wrByte k b).counted = s.counted := rfl
@[simp] theorem wrByte_tick (k : Nat) (b : Byte) : (s.wrByte k b).tick = s.tick := rfl
@[simp] theorem wrByte_turn (k : Nat) (b : Byte) : (s.wrByte k b).turn = s.turn := rfl
@[simp] theorem wrByte_inputs (k : Nat) (b : Byte) : (s.wrByte k b).inputs = s.inputs := rfl
@[simp] theorem wrByte_lastRegion (k : Nat) (b : Byte) : (s.wrByte k b).lastRegion = s.lastRegion := rfl
@[simp] theorem wrByte_starts (k : Nat) (b : Byte) : (s.wrByte k b).starts = s.starts := rfl
@[simp] theorem wrByte_lqtab (k : Nat) (b : Byte) : (s.wrByte k b).lqtab = s.lqtab := rfl
@[simp] theorem wrByte_ctxtab (k : Nat) (b : Byte) : (s.wrByte k b).ctxtab = s.ctxtab := rfl
@[simp] theorem wrByte_prcnt (k : Nat) (b : Byte) : (s.wrByte k b).prcnt = s.prcnt := rfl
@[simp] theorem wrByte_tva (k : Nat) (b : Byte) : (s.wrByte k b).tva = s.tva := rfl
@[simp] theorem wrByte_tctx (k : Nat) (b : Byte) : (s.wrByte k b).tctx = s.tctx := rfl
@[simp] theorem wrByte_tlbBusy (k : Nat) (b : Byte) : (s.wrByte k b).tlbBusy = s.tlbBusy := rfl
@[simp] theorem wrByte_tlbRun (k : Nat) (b : Byte) : (s.wrByte k b).tlbRun = s.tlbRun := rfl
@[simp] theorem wrByte_icva (k : Nat) (b : Byte) : (s.wrByte k b).icva = s.icva := rfl
@[simp] theorem wrByte_icctx (k : Nat) (b : Byte) : (s.wrByte k b).icctx = s.icctx := rfl
@[simp] theorem wrByte_icBusy (k : Nat) (b : Byte) : (s.wrByte k b).icBusy = s.icBusy := rfl
@[simp] theorem wrByte_icRun (k : Nat) (b : Byte) : (s.wrByte k b).icRun = s.icRun := rfl
@[simp] theorem wrByte_mesh (k : Nat) (b : Byte) : (s.wrByte k b).mesh = s.mesh := rfl
@[simp] theorem wrByte_meshWritten (k : Nat) (b : Byte) : (s.wrByte k b).meshWritten = s.meshWritten := rfl
@[simp] theorem wrByte_ptpLock (k : Nat) (b : Byte) : (s.wrByte k b).ptpLock = s.ptpLock := rfl
@[simp] theorem wrByte_ptpOffset (k : Nat) (b : Byte) : (s.wrByte k b).ptpOffset = s.ptpOffset := rfl
@[simp] theorem wrByte_ptpGood (k : Nat) (b : Byte) : (s.wrByte k b).ptpGood = s.ptpGood := rfl
@[simp] theorem wrByte_wdog (k : Nat) (b : Byte) : (s.wrByte k b).wdog = s.wdog := rfl
@[simp] theorem wrByte_fqbase (k : Nat) (b : Byte) : (s.wrByte k b).fqbase = s.fqbase := rfl
@[simp] theorem wrByte_fqEn (k : Nat) (b : Byte) : (s.wrByte k b).fqEn = s.fqEn := rfl
@[simp] theorem wrByte_fqLog (k : Nat) (b : Byte) : (s.wrByte k b).fqLog = s.fqLog := rfl
@[simp] theorem wrByte_fqprod (k : Nat) (b : Byte) : (s.wrByte k b).fqprod = s.fqprod := rfl
@[simp] theorem wrByte_fqcons (k : Nat) (b : Byte) : (s.wrByte k b).fqcons = s.fqcons := rfl
@[simp] theorem wrByte_faults (k : Nat) (b : Byte) : (s.wrByte k b).faults = s.faults := rfl
@[simp] theorem wrByte_fqSignalled (k : Nat) (b : Byte) : (s.wrByte k b).fqSignalled = s.fqSignalled := rfl
@[simp] theorem wrByte_budgets (k : Nat) (b : Byte) : (s.wrByte k b).budgets = s.budgets := rfl
@[simp] theorem wrByte_charges (k : Nat) (b : Byte) : (s.wrByte k b).charges = s.charges := rfl
@[simp] theorem wrByte_window (k : Nat) (b : Byte) : (s.wrByte k b).window = s.window := rfl
@[simp] theorem wrByte_clusters (k : Nat) (b : Byte) : (s.wrByte k b).clusters = s.clusters := rfl
@[simp] theorem wrByte_cecnt (k : Nat) (b : Byte) : (s.wrByte k b).cecnt = s.cecnt := rfl
@[simp] theorem wrByte_uecnt (k : Nat) (b : Byte) : (s.wrByte k b).uecnt = s.uecnt := rfl
@[simp] theorem wrByte_ueaddr (k : Nat) (b : Byte) : (s.wrByte k b).ueaddr = s.ueaddr := rfl
@[simp] theorem wrByte_uesrc (k : Nat) (b : Byte) : (s.wrByte k b).uesrc = s.uesrc := rfl
@[simp] theorem wrByte_ueSignalled (k : Nat) (b : Byte) : (s.wrByte k b).ueSignalled = s.ueSignalled := rfl
@[simp] theorem wrByte_ready (k : Nat) (b : Byte) : (s.wrByte k b).ready = s.ready := rfl
@[simp] theorem wrByte_failed (k : Nat) (b : Byte) : (s.wrByte k b).failed = s.failed := rfl
@[simp] theorem wrByte_trip (k : Nat) (b : Byte) : (s.wrByte k b).trip = s.trip := rfl
@[simp] theorem wrByte_firmware (k : Nat) (b : Byte) : (s.wrByte k b).firmware = s.firmware := rfl
@[simp] theorem wrByte_firmwareNext (k : Nat) (b : Byte) : (s.wrByte k b).firmwareNext = s.firmwareNext := rfl
@[simp] theorem wrByte_firmwareKept (k : Nat) (b : Byte) : (s.wrByte k b).firmwareKept = s.firmwareKept := rfl
@[simp] theorem wrByte_mctp (k : Nat) (b : Byte) : (s.wrByte k b).mctp = s.mctp := rfl
@[simp] theorem wrByte_msix (k : Nat) (b : Byte) : (s.wrByte k b).msix = s.msix := rfl
@[simp] theorem wrByte_preq (k : Nat) (b : Byte) : (s.wrByte k b).preq = s.preq := rfl
@[simp] theorem wrByte_lastQueue (k : Nat) (b : Byte) : (s.wrByte k b).lastQueue = s.lastQueue := rfl
@[simp] theorem wrByte_arrivals (k : Nat) (b : Byte) : (s.wrByte k b).arrivals = s.arrivals := rfl
@[simp] theorem wrByte_rung (k : Nat) (b : Byte) : (s.wrByte k b).rung = s.rung := rfl
@[simp] theorem wrByte_bells (k : Nat) (b : Byte) : (s.wrByte k b).bells = s.bells := rfl
@[simp] theorem wrByte_belated (k : Nat) (b : Byte) : (s.wrByte k b).belated = s.belated := rfl
@[simp] theorem wrByte_late (k : Nat) (b : Byte) : (s.wrByte k b).late = s.late := rfl

@[simp] theorem draw_me : (s.draw).me = s.me := rfl
@[simp] theorem draw_fr : (s.draw).fr = s.fr := rfl
@[simp] theorem draw_live : (s.draw).live = s.live := rfl
@[simp] theorem draw_groups : (s.draw).groups = s.groups := rfl
@[simp] theorem draw_ov : (s.draw).ov = s.ov := rfl
@[simp] theorem draw_ray : (s.draw).ray = s.ray := rfl
@[simp] theorem draw_rayLive : (s.draw).rayLive = s.rayLive := rfl
@[simp] theorem draw_rays : (s.draw).rays = s.rays := rfl
@[simp] theorem draw_codes : (s.draw).codes = s.codes := rfl
@[simp] theorem draw_ops : (s.draw).ops = s.ops := rfl
@[simp] theorem draw_nextOp : (s.draw).nextOp = s.nextOp := rfl
@[simp] theorem draw_teams : (s.draw).teams = s.teams := rfl
@[simp] theorem draw_nextTeam : (s.draw).nextTeam = s.nextTeam := rfl
@[simp] theorem draw_grids : (s.draw).grids = s.grids := rfl
@[simp] theorem draw_nextGrid : (s.draw).nextGrid = s.nextGrid := rfl
@[simp] theorem draw_clusterBarriers : (s.draw).clusterBarriers = s.clusterBarriers := rfl
@[simp] theorem draw_tiles : (s.draw).tiles = s.tiles := rfl
@[simp] theorem draw_landings : (s.draw).landings = s.landings := rfl
@[simp] theorem draw_memory : (s.draw).memory = s.memory := rfl
@[simp] theorem draw_poison : (s.draw).poison = s.poison := rfl
@[simp] theorem draw_tags : (s.draw).tags = s.tags := rfl
@[simp] theorem draw_syncs : (s.draw).syncs = s.syncs := rfl
@[simp] theorem draw_lastReleases : (s.draw).lastReleases = s.lastReleases := rfl
@[simp] theorem draw_commits : (s.draw).commits = s.commits := rfl
@[simp] theorem draw_recent : (s.draw).recent = s.recent := rfl
@[simp] theorem draw_l1 : (s.draw).l1 = s.l1 := rfl
@[simp] theorem draw_icache : (s.draw).icache = s.icache := rfl
@[simp] theorem draw_l2i : (s.draw).l2i = s.l2i := rfl
@[simp] theorem draw_fills : (s.draw).fills = s.fills := rfl
@[simp] theorem draw_tlb : (s.draw).tlb = s.tlb := rfl
@[simp] theorem draw_walks : (s.draw).walks = s.walks := rfl
@[simp] theorem draw_unit : (s.draw).unit = s.unit := rfl
@[simp] theorem draw_now : (s.draw).now = s.now := rfl
@[simp] theorem draw_counted : (s.draw).counted = s.counted := rfl
@[simp] theorem draw_tick : (s.draw).tick = s.tick + 1 := rfl
@[simp] theorem draw_turn : (s.draw).turn = s.turn := rfl
@[simp] theorem draw_inputs : (s.draw).inputs = s.inputs := rfl
@[simp] theorem draw_lastRegion : (s.draw).lastRegion = s.lastRegion := rfl
@[simp] theorem draw_starts : (s.draw).starts = s.starts := rfl
@[simp] theorem draw_lqtab : (s.draw).lqtab = s.lqtab := rfl
@[simp] theorem draw_ctxtab : (s.draw).ctxtab = s.ctxtab := rfl
@[simp] theorem draw_prcnt : (s.draw).prcnt = s.prcnt := rfl
@[simp] theorem draw_tva : (s.draw).tva = s.tva := rfl
@[simp] theorem draw_tctx : (s.draw).tctx = s.tctx := rfl
@[simp] theorem draw_tlbBusy : (s.draw).tlbBusy = s.tlbBusy := rfl
@[simp] theorem draw_tlbRun : (s.draw).tlbRun = s.tlbRun := rfl
@[simp] theorem draw_icva : (s.draw).icva = s.icva := rfl
@[simp] theorem draw_icctx : (s.draw).icctx = s.icctx := rfl
@[simp] theorem draw_icBusy : (s.draw).icBusy = s.icBusy := rfl
@[simp] theorem draw_icRun : (s.draw).icRun = s.icRun := rfl
@[simp] theorem draw_mesh : (s.draw).mesh = s.mesh := rfl
@[simp] theorem draw_meshWritten : (s.draw).meshWritten = s.meshWritten := rfl
@[simp] theorem draw_ptpLock : (s.draw).ptpLock = s.ptpLock := rfl
@[simp] theorem draw_ptpOffset : (s.draw).ptpOffset = s.ptpOffset := rfl
@[simp] theorem draw_ptpGood : (s.draw).ptpGood = s.ptpGood := rfl
@[simp] theorem draw_wdog : (s.draw).wdog = s.wdog := rfl
@[simp] theorem draw_fqbase : (s.draw).fqbase = s.fqbase := rfl
@[simp] theorem draw_fqEn : (s.draw).fqEn = s.fqEn := rfl
@[simp] theorem draw_fqLog : (s.draw).fqLog = s.fqLog := rfl
@[simp] theorem draw_fqprod : (s.draw).fqprod = s.fqprod := rfl
@[simp] theorem draw_fqcons : (s.draw).fqcons = s.fqcons := rfl
@[simp] theorem draw_faults : (s.draw).faults = s.faults := rfl
@[simp] theorem draw_fqSignalled : (s.draw).fqSignalled = s.fqSignalled := rfl
@[simp] theorem draw_budgets : (s.draw).budgets = s.budgets := rfl
@[simp] theorem draw_charges : (s.draw).charges = s.charges := rfl
@[simp] theorem draw_window : (s.draw).window = s.window := rfl
@[simp] theorem draw_clusters : (s.draw).clusters = s.clusters := rfl
@[simp] theorem draw_cecnt : (s.draw).cecnt = s.cecnt := rfl
@[simp] theorem draw_uecnt : (s.draw).uecnt = s.uecnt := rfl
@[simp] theorem draw_ueaddr : (s.draw).ueaddr = s.ueaddr := rfl
@[simp] theorem draw_uesrc : (s.draw).uesrc = s.uesrc := rfl
@[simp] theorem draw_ueSignalled : (s.draw).ueSignalled = s.ueSignalled := rfl
@[simp] theorem draw_ready : (s.draw).ready = s.ready := rfl
@[simp] theorem draw_failed : (s.draw).failed = s.failed := rfl
@[simp] theorem draw_trip : (s.draw).trip = s.trip := rfl
@[simp] theorem draw_firmware : (s.draw).firmware = s.firmware := rfl
@[simp] theorem draw_firmwareNext : (s.draw).firmwareNext = s.firmwareNext := rfl
@[simp] theorem draw_firmwareKept : (s.draw).firmwareKept = s.firmwareKept := rfl
@[simp] theorem draw_mctp : (s.draw).mctp = s.mctp := rfl
@[simp] theorem draw_msix : (s.draw).msix = s.msix := rfl
@[simp] theorem draw_preq : (s.draw).preq = s.preq := rfl
@[simp] theorem draw_lastQueue : (s.draw).lastQueue = s.lastQueue := rfl
@[simp] theorem draw_arrivals : (s.draw).arrivals = s.arrivals := rfl
@[simp] theorem draw_rung : (s.draw).rung = s.rung := rfl
@[simp] theorem draw_bells : (s.draw).bells = s.bells := rfl
@[simp] theorem draw_belated : (s.draw).belated = s.belated := rfl
@[simp] theorem draw_late : (s.draw).late = s.late := rfl

@[simp] theorem signal_me (v : Nat) : (s.signal v).me = s.me := rfl
@[simp] theorem signal_fr (v : Nat) : (s.signal v).fr = s.fr := rfl
@[simp] theorem signal_live (v : Nat) : (s.signal v).live = s.live := rfl
@[simp] theorem signal_groups (v : Nat) : (s.signal v).groups = s.groups := rfl
@[simp] theorem signal_ov (v : Nat) : (s.signal v).ov = s.ov := rfl
@[simp] theorem signal_ray (v : Nat) : (s.signal v).ray = s.ray := rfl
@[simp] theorem signal_rayLive (v : Nat) : (s.signal v).rayLive = s.rayLive := rfl
@[simp] theorem signal_rays (v : Nat) : (s.signal v).rays = s.rays := rfl
@[simp] theorem signal_codes (v : Nat) : (s.signal v).codes = s.codes := rfl
@[simp] theorem signal_ops (v : Nat) : (s.signal v).ops = s.ops := rfl
@[simp] theorem signal_nextOp (v : Nat) : (s.signal v).nextOp = s.nextOp := rfl
@[simp] theorem signal_teams (v : Nat) : (s.signal v).teams = s.teams := rfl
@[simp] theorem signal_nextTeam (v : Nat) : (s.signal v).nextTeam = s.nextTeam := rfl
@[simp] theorem signal_grids (v : Nat) : (s.signal v).grids = s.grids := rfl
@[simp] theorem signal_nextGrid (v : Nat) : (s.signal v).nextGrid = s.nextGrid := rfl
@[simp] theorem signal_clusterBarriers (v : Nat) : (s.signal v).clusterBarriers = s.clusterBarriers := rfl
@[simp] theorem signal_tiles (v : Nat) : (s.signal v).tiles = s.tiles := rfl
@[simp] theorem signal_landings (v : Nat) : (s.signal v).landings = s.landings := rfl
@[simp] theorem signal_memory (v : Nat) : (s.signal v).memory = s.memory := rfl
@[simp] theorem signal_poison (v : Nat) : (s.signal v).poison = s.poison := rfl
@[simp] theorem signal_tags (v : Nat) : (s.signal v).tags = s.tags := rfl
@[simp] theorem signal_syncs (v : Nat) : (s.signal v).syncs = s.syncs := rfl
@[simp] theorem signal_lastReleases (v : Nat) : (s.signal v).lastReleases = s.lastReleases := rfl
@[simp] theorem signal_commits (v : Nat) : (s.signal v).commits = s.commits := rfl
@[simp] theorem signal_recent (v : Nat) : (s.signal v).recent = s.recent := rfl
@[simp] theorem signal_l1 (v : Nat) : (s.signal v).l1 = s.l1 := rfl
@[simp] theorem signal_icache (v : Nat) : (s.signal v).icache = s.icache := rfl
@[simp] theorem signal_l2i (v : Nat) : (s.signal v).l2i = s.l2i := rfl
@[simp] theorem signal_fills (v : Nat) : (s.signal v).fills = s.fills := rfl
@[simp] theorem signal_tlb (v : Nat) : (s.signal v).tlb = s.tlb := rfl
@[simp] theorem signal_walks (v : Nat) : (s.signal v).walks = s.walks := rfl
@[simp] theorem signal_unit (v : Nat) : (s.signal v).unit = s.unit := rfl
@[simp] theorem signal_now (v : Nat) : (s.signal v).now = s.now := rfl
@[simp] theorem signal_counted (v : Nat) : (s.signal v).counted = s.counted := rfl
@[simp] theorem signal_tick (v : Nat) : (s.signal v).tick = s.tick := rfl
@[simp] theorem signal_turn (v : Nat) : (s.signal v).turn = s.turn := rfl
@[simp] theorem signal_inputs (v : Nat) : (s.signal v).inputs = s.inputs := rfl
@[simp] theorem signal_lastRegion (v : Nat) : (s.signal v).lastRegion = s.lastRegion := rfl
@[simp] theorem signal_starts (v : Nat) : (s.signal v).starts = s.starts := rfl
@[simp] theorem signal_lqtab (v : Nat) : (s.signal v).lqtab = s.lqtab := rfl
@[simp] theorem signal_ctxtab (v : Nat) : (s.signal v).ctxtab = s.ctxtab := rfl
@[simp] theorem signal_prcnt (v : Nat) : (s.signal v).prcnt = s.prcnt := rfl
@[simp] theorem signal_tva (v : Nat) : (s.signal v).tva = s.tva := rfl
@[simp] theorem signal_tctx (v : Nat) : (s.signal v).tctx = s.tctx := rfl
@[simp] theorem signal_tlbBusy (v : Nat) : (s.signal v).tlbBusy = s.tlbBusy := rfl
@[simp] theorem signal_tlbRun (v : Nat) : (s.signal v).tlbRun = s.tlbRun := rfl
@[simp] theorem signal_icva (v : Nat) : (s.signal v).icva = s.icva := rfl
@[simp] theorem signal_icctx (v : Nat) : (s.signal v).icctx = s.icctx := rfl
@[simp] theorem signal_icBusy (v : Nat) : (s.signal v).icBusy = s.icBusy := rfl
@[simp] theorem signal_icRun (v : Nat) : (s.signal v).icRun = s.icRun := rfl
@[simp] theorem signal_mesh (v : Nat) : (s.signal v).mesh = s.mesh := rfl
@[simp] theorem signal_meshWritten (v : Nat) : (s.signal v).meshWritten = s.meshWritten := rfl
@[simp] theorem signal_ptpLock (v : Nat) : (s.signal v).ptpLock = s.ptpLock := rfl
@[simp] theorem signal_ptpOffset (v : Nat) : (s.signal v).ptpOffset = s.ptpOffset := rfl
@[simp] theorem signal_ptpGood (v : Nat) : (s.signal v).ptpGood = s.ptpGood := rfl
@[simp] theorem signal_wdog (v : Nat) : (s.signal v).wdog = s.wdog := rfl
@[simp] theorem signal_fqbase (v : Nat) : (s.signal v).fqbase = s.fqbase := rfl
@[simp] theorem signal_fqEn (v : Nat) : (s.signal v).fqEn = s.fqEn := rfl
@[simp] theorem signal_fqLog (v : Nat) : (s.signal v).fqLog = s.fqLog := rfl
@[simp] theorem signal_fqprod (v : Nat) : (s.signal v).fqprod = s.fqprod := rfl
@[simp] theorem signal_fqcons (v : Nat) : (s.signal v).fqcons = s.fqcons := rfl
@[simp] theorem signal_faults (v : Nat) : (s.signal v).faults = s.faults := rfl
@[simp] theorem signal_fqSignalled (v : Nat) : (s.signal v).fqSignalled = s.fqSignalled := rfl
@[simp] theorem signal_budgets (v : Nat) : (s.signal v).budgets = s.budgets := rfl
@[simp] theorem signal_charges (v : Nat) : (s.signal v).charges = s.charges := rfl
@[simp] theorem signal_window (v : Nat) : (s.signal v).window = s.window := rfl
@[simp] theorem signal_clusters (v : Nat) : (s.signal v).clusters = s.clusters := rfl
@[simp] theorem signal_cecnt (v : Nat) : (s.signal v).cecnt = s.cecnt := rfl
@[simp] theorem signal_uecnt (v : Nat) : (s.signal v).uecnt = s.uecnt := rfl
@[simp] theorem signal_ueaddr (v : Nat) : (s.signal v).ueaddr = s.ueaddr := rfl
@[simp] theorem signal_uesrc (v : Nat) : (s.signal v).uesrc = s.uesrc := rfl
@[simp] theorem signal_ueSignalled (v : Nat) : (s.signal v).ueSignalled = s.ueSignalled := rfl
@[simp] theorem signal_ready (v : Nat) : (s.signal v).ready = s.ready := rfl
@[simp] theorem signal_failed (v : Nat) : (s.signal v).failed = s.failed := rfl
@[simp] theorem signal_trip (v : Nat) : (s.signal v).trip = s.trip := rfl
@[simp] theorem signal_firmware (v : Nat) : (s.signal v).firmware = s.firmware := rfl
@[simp] theorem signal_firmwareNext (v : Nat) : (s.signal v).firmwareNext = s.firmwareNext := rfl
@[simp] theorem signal_firmwareKept (v : Nat) : (s.signal v).firmwareKept = s.firmwareKept := rfl
@[simp] theorem signal_mctp (v : Nat) : (s.signal v).mctp = s.mctp := rfl
@[simp] theorem signal_msix (v : Nat) : (s.signal v).msix = v :: s.msix := rfl
@[simp] theorem signal_preq (v : Nat) : (s.signal v).preq = s.preq := rfl
@[simp] theorem signal_lastQueue (v : Nat) : (s.signal v).lastQueue = s.lastQueue := rfl
@[simp] theorem signal_arrivals (v : Nat) : (s.signal v).arrivals = s.arrivals := rfl
@[simp] theorem signal_rung (v : Nat) : (s.signal v).rung = s.rung := rfl
@[simp] theorem signal_bells (v : Nat) : (s.signal v).bells = s.bells := rfl
@[simp] theorem signal_belated (v : Nat) : (s.signal v).belated = s.belated := rfl
@[simp] theorem signal_late (v : Nat) : (s.signal v).late = s.late := rfl

@[simp] theorem modTeam_me (n : Nat) (f : Team → Team) : (s.modTeam n f).me = s.me := rfl
@[simp] theorem modTeam_fr (n : Nat) (f : Team → Team) : (s.modTeam n f).fr = s.fr := rfl
@[simp] theorem modTeam_live (n : Nat) (f : Team → Team) : (s.modTeam n f).live = s.live := rfl
@[simp] theorem modTeam_groups (n : Nat) (f : Team → Team) : (s.modTeam n f).groups = s.groups := rfl
@[simp] theorem modTeam_ov (n : Nat) (f : Team → Team) : (s.modTeam n f).ov = s.ov := rfl
@[simp] theorem modTeam_ray (n : Nat) (f : Team → Team) : (s.modTeam n f).ray = s.ray := rfl
@[simp] theorem modTeam_rayLive (n : Nat) (f : Team → Team) : (s.modTeam n f).rayLive = s.rayLive := rfl
@[simp] theorem modTeam_rays (n : Nat) (f : Team → Team) : (s.modTeam n f).rays = s.rays := rfl
@[simp] theorem modTeam_codes (n : Nat) (f : Team → Team) : (s.modTeam n f).codes = s.codes := rfl
@[simp] theorem modTeam_ops (n : Nat) (f : Team → Team) : (s.modTeam n f).ops = s.ops := rfl
@[simp] theorem modTeam_nextOp (n : Nat) (f : Team → Team) : (s.modTeam n f).nextOp = s.nextOp := rfl
@[simp] theorem modTeam_teams (n : Nat) (f : Team → Team) : (s.modTeam n f).teams = s.teams.map fun t => if t.serial == n then f t else t := rfl
@[simp] theorem modTeam_nextTeam (n : Nat) (f : Team → Team) : (s.modTeam n f).nextTeam = s.nextTeam := rfl
@[simp] theorem modTeam_grids (n : Nat) (f : Team → Team) : (s.modTeam n f).grids = s.grids := rfl
@[simp] theorem modTeam_nextGrid (n : Nat) (f : Team → Team) : (s.modTeam n f).nextGrid = s.nextGrid := rfl
@[simp] theorem modTeam_clusterBarriers (n : Nat) (f : Team → Team) : (s.modTeam n f).clusterBarriers = s.clusterBarriers := rfl
@[simp] theorem modTeam_tiles (n : Nat) (f : Team → Team) : (s.modTeam n f).tiles = s.tiles := rfl
@[simp] theorem modTeam_landings (n : Nat) (f : Team → Team) : (s.modTeam n f).landings = s.landings := rfl
@[simp] theorem modTeam_memory (n : Nat) (f : Team → Team) : (s.modTeam n f).memory = s.memory := rfl
@[simp] theorem modTeam_poison (n : Nat) (f : Team → Team) : (s.modTeam n f).poison = s.poison := rfl
@[simp] theorem modTeam_tags (n : Nat) (f : Team → Team) : (s.modTeam n f).tags = s.tags := rfl
@[simp] theorem modTeam_syncs (n : Nat) (f : Team → Team) : (s.modTeam n f).syncs = s.syncs := rfl
@[simp] theorem modTeam_lastReleases (n : Nat) (f : Team → Team) : (s.modTeam n f).lastReleases = s.lastReleases := rfl
@[simp] theorem modTeam_commits (n : Nat) (f : Team → Team) : (s.modTeam n f).commits = s.commits := rfl
@[simp] theorem modTeam_recent (n : Nat) (f : Team → Team) : (s.modTeam n f).recent = s.recent := rfl
@[simp] theorem modTeam_l1 (n : Nat) (f : Team → Team) : (s.modTeam n f).l1 = s.l1 := rfl
@[simp] theorem modTeam_icache (n : Nat) (f : Team → Team) : (s.modTeam n f).icache = s.icache := rfl
@[simp] theorem modTeam_l2i (n : Nat) (f : Team → Team) : (s.modTeam n f).l2i = s.l2i := rfl
@[simp] theorem modTeam_fills (n : Nat) (f : Team → Team) : (s.modTeam n f).fills = s.fills := rfl
@[simp] theorem modTeam_tlb (n : Nat) (f : Team → Team) : (s.modTeam n f).tlb = s.tlb := rfl
@[simp] theorem modTeam_walks (n : Nat) (f : Team → Team) : (s.modTeam n f).walks = s.walks := rfl
@[simp] theorem modTeam_unit (n : Nat) (f : Team → Team) : (s.modTeam n f).unit = s.unit := rfl
@[simp] theorem modTeam_now (n : Nat) (f : Team → Team) : (s.modTeam n f).now = s.now := rfl
@[simp] theorem modTeam_counted (n : Nat) (f : Team → Team) : (s.modTeam n f).counted = s.counted := rfl
@[simp] theorem modTeam_tick (n : Nat) (f : Team → Team) : (s.modTeam n f).tick = s.tick := rfl
@[simp] theorem modTeam_turn (n : Nat) (f : Team → Team) : (s.modTeam n f).turn = s.turn := rfl
@[simp] theorem modTeam_inputs (n : Nat) (f : Team → Team) : (s.modTeam n f).inputs = s.inputs := rfl
@[simp] theorem modTeam_lastRegion (n : Nat) (f : Team → Team) : (s.modTeam n f).lastRegion = s.lastRegion := rfl
@[simp] theorem modTeam_starts (n : Nat) (f : Team → Team) : (s.modTeam n f).starts = s.starts := rfl
@[simp] theorem modTeam_lqtab (n : Nat) (f : Team → Team) : (s.modTeam n f).lqtab = s.lqtab := rfl
@[simp] theorem modTeam_ctxtab (n : Nat) (f : Team → Team) : (s.modTeam n f).ctxtab = s.ctxtab := rfl
@[simp] theorem modTeam_prcnt (n : Nat) (f : Team → Team) : (s.modTeam n f).prcnt = s.prcnt := rfl
@[simp] theorem modTeam_tva (n : Nat) (f : Team → Team) : (s.modTeam n f).tva = s.tva := rfl
@[simp] theorem modTeam_tctx (n : Nat) (f : Team → Team) : (s.modTeam n f).tctx = s.tctx := rfl
@[simp] theorem modTeam_tlbBusy (n : Nat) (f : Team → Team) : (s.modTeam n f).tlbBusy = s.tlbBusy := rfl
@[simp] theorem modTeam_tlbRun (n : Nat) (f : Team → Team) : (s.modTeam n f).tlbRun = s.tlbRun := rfl
@[simp] theorem modTeam_icva (n : Nat) (f : Team → Team) : (s.modTeam n f).icva = s.icva := rfl
@[simp] theorem modTeam_icctx (n : Nat) (f : Team → Team) : (s.modTeam n f).icctx = s.icctx := rfl
@[simp] theorem modTeam_icBusy (n : Nat) (f : Team → Team) : (s.modTeam n f).icBusy = s.icBusy := rfl
@[simp] theorem modTeam_icRun (n : Nat) (f : Team → Team) : (s.modTeam n f).icRun = s.icRun := rfl
@[simp] theorem modTeam_mesh (n : Nat) (f : Team → Team) : (s.modTeam n f).mesh = s.mesh := rfl
@[simp] theorem modTeam_meshWritten (n : Nat) (f : Team → Team) : (s.modTeam n f).meshWritten = s.meshWritten := rfl
@[simp] theorem modTeam_ptpLock (n : Nat) (f : Team → Team) : (s.modTeam n f).ptpLock = s.ptpLock := rfl
@[simp] theorem modTeam_ptpOffset (n : Nat) (f : Team → Team) : (s.modTeam n f).ptpOffset = s.ptpOffset := rfl
@[simp] theorem modTeam_ptpGood (n : Nat) (f : Team → Team) : (s.modTeam n f).ptpGood = s.ptpGood := rfl
@[simp] theorem modTeam_wdog (n : Nat) (f : Team → Team) : (s.modTeam n f).wdog = s.wdog := rfl
@[simp] theorem modTeam_fqbase (n : Nat) (f : Team → Team) : (s.modTeam n f).fqbase = s.fqbase := rfl
@[simp] theorem modTeam_fqEn (n : Nat) (f : Team → Team) : (s.modTeam n f).fqEn = s.fqEn := rfl
@[simp] theorem modTeam_fqLog (n : Nat) (f : Team → Team) : (s.modTeam n f).fqLog = s.fqLog := rfl
@[simp] theorem modTeam_fqprod (n : Nat) (f : Team → Team) : (s.modTeam n f).fqprod = s.fqprod := rfl
@[simp] theorem modTeam_fqcons (n : Nat) (f : Team → Team) : (s.modTeam n f).fqcons = s.fqcons := rfl
@[simp] theorem modTeam_faults (n : Nat) (f : Team → Team) : (s.modTeam n f).faults = s.faults := rfl
@[simp] theorem modTeam_fqSignalled (n : Nat) (f : Team → Team) : (s.modTeam n f).fqSignalled = s.fqSignalled := rfl
@[simp] theorem modTeam_budgets (n : Nat) (f : Team → Team) : (s.modTeam n f).budgets = s.budgets := rfl
@[simp] theorem modTeam_charges (n : Nat) (f : Team → Team) : (s.modTeam n f).charges = s.charges := rfl
@[simp] theorem modTeam_window (n : Nat) (f : Team → Team) : (s.modTeam n f).window = s.window := rfl
@[simp] theorem modTeam_clusters (n : Nat) (f : Team → Team) : (s.modTeam n f).clusters = s.clusters := rfl
@[simp] theorem modTeam_cecnt (n : Nat) (f : Team → Team) : (s.modTeam n f).cecnt = s.cecnt := rfl
@[simp] theorem modTeam_uecnt (n : Nat) (f : Team → Team) : (s.modTeam n f).uecnt = s.uecnt := rfl
@[simp] theorem modTeam_ueaddr (n : Nat) (f : Team → Team) : (s.modTeam n f).ueaddr = s.ueaddr := rfl
@[simp] theorem modTeam_uesrc (n : Nat) (f : Team → Team) : (s.modTeam n f).uesrc = s.uesrc := rfl
@[simp] theorem modTeam_ueSignalled (n : Nat) (f : Team → Team) : (s.modTeam n f).ueSignalled = s.ueSignalled := rfl
@[simp] theorem modTeam_ready (n : Nat) (f : Team → Team) : (s.modTeam n f).ready = s.ready := rfl
@[simp] theorem modTeam_failed (n : Nat) (f : Team → Team) : (s.modTeam n f).failed = s.failed := rfl
@[simp] theorem modTeam_trip (n : Nat) (f : Team → Team) : (s.modTeam n f).trip = s.trip := rfl
@[simp] theorem modTeam_firmware (n : Nat) (f : Team → Team) : (s.modTeam n f).firmware = s.firmware := rfl
@[simp] theorem modTeam_firmwareNext (n : Nat) (f : Team → Team) : (s.modTeam n f).firmwareNext = s.firmwareNext := rfl
@[simp] theorem modTeam_firmwareKept (n : Nat) (f : Team → Team) : (s.modTeam n f).firmwareKept = s.firmwareKept := rfl
@[simp] theorem modTeam_mctp (n : Nat) (f : Team → Team) : (s.modTeam n f).mctp = s.mctp := rfl
@[simp] theorem modTeam_msix (n : Nat) (f : Team → Team) : (s.modTeam n f).msix = s.msix := rfl
@[simp] theorem modTeam_preq (n : Nat) (f : Team → Team) : (s.modTeam n f).preq = s.preq := rfl
@[simp] theorem modTeam_lastQueue (n : Nat) (f : Team → Team) : (s.modTeam n f).lastQueue = s.lastQueue := rfl
@[simp] theorem modTeam_arrivals (n : Nat) (f : Team → Team) : (s.modTeam n f).arrivals = s.arrivals := rfl
@[simp] theorem modTeam_rung (n : Nat) (f : Team → Team) : (s.modTeam n f).rung = s.rung := rfl
@[simp] theorem modTeam_bells (n : Nat) (f : Team → Team) : (s.modTeam n f).bells = s.bells := rfl
@[simp] theorem modTeam_belated (n : Nat) (f : Team → Team) : (s.modTeam n f).belated = s.belated := rfl
@[simp] theorem modTeam_late (n : Nat) (f : Team → Team) : (s.modTeam n f).late = s.late := rfl

@[simp] theorem modGrid_me (n : Nat) (f : Grid → Grid) : (s.modGrid n f).me = s.me := rfl
@[simp] theorem modGrid_fr (n : Nat) (f : Grid → Grid) : (s.modGrid n f).fr = s.fr := rfl
@[simp] theorem modGrid_live (n : Nat) (f : Grid → Grid) : (s.modGrid n f).live = s.live := rfl
@[simp] theorem modGrid_groups (n : Nat) (f : Grid → Grid) : (s.modGrid n f).groups = s.groups := rfl
@[simp] theorem modGrid_ov (n : Nat) (f : Grid → Grid) : (s.modGrid n f).ov = s.ov := rfl
@[simp] theorem modGrid_ray (n : Nat) (f : Grid → Grid) : (s.modGrid n f).ray = s.ray := rfl
@[simp] theorem modGrid_rayLive (n : Nat) (f : Grid → Grid) : (s.modGrid n f).rayLive = s.rayLive := rfl
@[simp] theorem modGrid_rays (n : Nat) (f : Grid → Grid) : (s.modGrid n f).rays = s.rays := rfl
@[simp] theorem modGrid_codes (n : Nat) (f : Grid → Grid) : (s.modGrid n f).codes = s.codes := rfl
@[simp] theorem modGrid_ops (n : Nat) (f : Grid → Grid) : (s.modGrid n f).ops = s.ops := rfl
@[simp] theorem modGrid_nextOp (n : Nat) (f : Grid → Grid) : (s.modGrid n f).nextOp = s.nextOp := rfl
@[simp] theorem modGrid_teams (n : Nat) (f : Grid → Grid) : (s.modGrid n f).teams = s.teams := rfl
@[simp] theorem modGrid_nextTeam (n : Nat) (f : Grid → Grid) : (s.modGrid n f).nextTeam = s.nextTeam := rfl
@[simp] theorem modGrid_grids (n : Nat) (f : Grid → Grid) : (s.modGrid n f).grids = s.grids.map fun g => if g.key == n then f g else g := rfl
@[simp] theorem modGrid_nextGrid (n : Nat) (f : Grid → Grid) : (s.modGrid n f).nextGrid = s.nextGrid := rfl
@[simp] theorem modGrid_clusterBarriers (n : Nat) (f : Grid → Grid) : (s.modGrid n f).clusterBarriers = s.clusterBarriers := rfl
@[simp] theorem modGrid_tiles (n : Nat) (f : Grid → Grid) : (s.modGrid n f).tiles = s.tiles := rfl
@[simp] theorem modGrid_landings (n : Nat) (f : Grid → Grid) : (s.modGrid n f).landings = s.landings := rfl
@[simp] theorem modGrid_memory (n : Nat) (f : Grid → Grid) : (s.modGrid n f).memory = s.memory := rfl
@[simp] theorem modGrid_poison (n : Nat) (f : Grid → Grid) : (s.modGrid n f).poison = s.poison := rfl
@[simp] theorem modGrid_tags (n : Nat) (f : Grid → Grid) : (s.modGrid n f).tags = s.tags := rfl
@[simp] theorem modGrid_syncs (n : Nat) (f : Grid → Grid) : (s.modGrid n f).syncs = s.syncs := rfl
@[simp] theorem modGrid_lastReleases (n : Nat) (f : Grid → Grid) : (s.modGrid n f).lastReleases = s.lastReleases := rfl
@[simp] theorem modGrid_commits (n : Nat) (f : Grid → Grid) : (s.modGrid n f).commits = s.commits := rfl
@[simp] theorem modGrid_recent (n : Nat) (f : Grid → Grid) : (s.modGrid n f).recent = s.recent := rfl
@[simp] theorem modGrid_l1 (n : Nat) (f : Grid → Grid) : (s.modGrid n f).l1 = s.l1 := rfl
@[simp] theorem modGrid_icache (n : Nat) (f : Grid → Grid) : (s.modGrid n f).icache = s.icache := rfl
@[simp] theorem modGrid_l2i (n : Nat) (f : Grid → Grid) : (s.modGrid n f).l2i = s.l2i := rfl
@[simp] theorem modGrid_fills (n : Nat) (f : Grid → Grid) : (s.modGrid n f).fills = s.fills := rfl
@[simp] theorem modGrid_tlb (n : Nat) (f : Grid → Grid) : (s.modGrid n f).tlb = s.tlb := rfl
@[simp] theorem modGrid_walks (n : Nat) (f : Grid → Grid) : (s.modGrid n f).walks = s.walks := rfl
@[simp] theorem modGrid_unit (n : Nat) (f : Grid → Grid) : (s.modGrid n f).unit = s.unit := rfl
@[simp] theorem modGrid_now (n : Nat) (f : Grid → Grid) : (s.modGrid n f).now = s.now := rfl
@[simp] theorem modGrid_counted (n : Nat) (f : Grid → Grid) : (s.modGrid n f).counted = s.counted := rfl
@[simp] theorem modGrid_tick (n : Nat) (f : Grid → Grid) : (s.modGrid n f).tick = s.tick := rfl
@[simp] theorem modGrid_turn (n : Nat) (f : Grid → Grid) : (s.modGrid n f).turn = s.turn := rfl
@[simp] theorem modGrid_inputs (n : Nat) (f : Grid → Grid) : (s.modGrid n f).inputs = s.inputs := rfl
@[simp] theorem modGrid_lastRegion (n : Nat) (f : Grid → Grid) : (s.modGrid n f).lastRegion = s.lastRegion := rfl
@[simp] theorem modGrid_starts (n : Nat) (f : Grid → Grid) : (s.modGrid n f).starts = s.starts := rfl
@[simp] theorem modGrid_lqtab (n : Nat) (f : Grid → Grid) : (s.modGrid n f).lqtab = s.lqtab := rfl
@[simp] theorem modGrid_ctxtab (n : Nat) (f : Grid → Grid) : (s.modGrid n f).ctxtab = s.ctxtab := rfl
@[simp] theorem modGrid_prcnt (n : Nat) (f : Grid → Grid) : (s.modGrid n f).prcnt = s.prcnt := rfl
@[simp] theorem modGrid_tva (n : Nat) (f : Grid → Grid) : (s.modGrid n f).tva = s.tva := rfl
@[simp] theorem modGrid_tctx (n : Nat) (f : Grid → Grid) : (s.modGrid n f).tctx = s.tctx := rfl
@[simp] theorem modGrid_tlbBusy (n : Nat) (f : Grid → Grid) : (s.modGrid n f).tlbBusy = s.tlbBusy := rfl
@[simp] theorem modGrid_tlbRun (n : Nat) (f : Grid → Grid) : (s.modGrid n f).tlbRun = s.tlbRun := rfl
@[simp] theorem modGrid_icva (n : Nat) (f : Grid → Grid) : (s.modGrid n f).icva = s.icva := rfl
@[simp] theorem modGrid_icctx (n : Nat) (f : Grid → Grid) : (s.modGrid n f).icctx = s.icctx := rfl
@[simp] theorem modGrid_icBusy (n : Nat) (f : Grid → Grid) : (s.modGrid n f).icBusy = s.icBusy := rfl
@[simp] theorem modGrid_icRun (n : Nat) (f : Grid → Grid) : (s.modGrid n f).icRun = s.icRun := rfl
@[simp] theorem modGrid_mesh (n : Nat) (f : Grid → Grid) : (s.modGrid n f).mesh = s.mesh := rfl
@[simp] theorem modGrid_meshWritten (n : Nat) (f : Grid → Grid) : (s.modGrid n f).meshWritten = s.meshWritten := rfl
@[simp] theorem modGrid_ptpLock (n : Nat) (f : Grid → Grid) : (s.modGrid n f).ptpLock = s.ptpLock := rfl
@[simp] theorem modGrid_ptpOffset (n : Nat) (f : Grid → Grid) : (s.modGrid n f).ptpOffset = s.ptpOffset := rfl
@[simp] theorem modGrid_ptpGood (n : Nat) (f : Grid → Grid) : (s.modGrid n f).ptpGood = s.ptpGood := rfl
@[simp] theorem modGrid_wdog (n : Nat) (f : Grid → Grid) : (s.modGrid n f).wdog = s.wdog := rfl
@[simp] theorem modGrid_fqbase (n : Nat) (f : Grid → Grid) : (s.modGrid n f).fqbase = s.fqbase := rfl
@[simp] theorem modGrid_fqEn (n : Nat) (f : Grid → Grid) : (s.modGrid n f).fqEn = s.fqEn := rfl
@[simp] theorem modGrid_fqLog (n : Nat) (f : Grid → Grid) : (s.modGrid n f).fqLog = s.fqLog := rfl
@[simp] theorem modGrid_fqprod (n : Nat) (f : Grid → Grid) : (s.modGrid n f).fqprod = s.fqprod := rfl
@[simp] theorem modGrid_fqcons (n : Nat) (f : Grid → Grid) : (s.modGrid n f).fqcons = s.fqcons := rfl
@[simp] theorem modGrid_faults (n : Nat) (f : Grid → Grid) : (s.modGrid n f).faults = s.faults := rfl
@[simp] theorem modGrid_fqSignalled (n : Nat) (f : Grid → Grid) : (s.modGrid n f).fqSignalled = s.fqSignalled := rfl
@[simp] theorem modGrid_budgets (n : Nat) (f : Grid → Grid) : (s.modGrid n f).budgets = s.budgets := rfl
@[simp] theorem modGrid_charges (n : Nat) (f : Grid → Grid) : (s.modGrid n f).charges = s.charges := rfl
@[simp] theorem modGrid_window (n : Nat) (f : Grid → Grid) : (s.modGrid n f).window = s.window := rfl
@[simp] theorem modGrid_clusters (n : Nat) (f : Grid → Grid) : (s.modGrid n f).clusters = s.clusters := rfl
@[simp] theorem modGrid_cecnt (n : Nat) (f : Grid → Grid) : (s.modGrid n f).cecnt = s.cecnt := rfl
@[simp] theorem modGrid_uecnt (n : Nat) (f : Grid → Grid) : (s.modGrid n f).uecnt = s.uecnt := rfl
@[simp] theorem modGrid_ueaddr (n : Nat) (f : Grid → Grid) : (s.modGrid n f).ueaddr = s.ueaddr := rfl
@[simp] theorem modGrid_uesrc (n : Nat) (f : Grid → Grid) : (s.modGrid n f).uesrc = s.uesrc := rfl
@[simp] theorem modGrid_ueSignalled (n : Nat) (f : Grid → Grid) : (s.modGrid n f).ueSignalled = s.ueSignalled := rfl
@[simp] theorem modGrid_ready (n : Nat) (f : Grid → Grid) : (s.modGrid n f).ready = s.ready := rfl
@[simp] theorem modGrid_failed (n : Nat) (f : Grid → Grid) : (s.modGrid n f).failed = s.failed := rfl
@[simp] theorem modGrid_trip (n : Nat) (f : Grid → Grid) : (s.modGrid n f).trip = s.trip := rfl
@[simp] theorem modGrid_firmware (n : Nat) (f : Grid → Grid) : (s.modGrid n f).firmware = s.firmware := rfl
@[simp] theorem modGrid_firmwareNext (n : Nat) (f : Grid → Grid) : (s.modGrid n f).firmwareNext = s.firmwareNext := rfl
@[simp] theorem modGrid_firmwareKept (n : Nat) (f : Grid → Grid) : (s.modGrid n f).firmwareKept = s.firmwareKept := rfl
@[simp] theorem modGrid_mctp (n : Nat) (f : Grid → Grid) : (s.modGrid n f).mctp = s.mctp := rfl
@[simp] theorem modGrid_msix (n : Nat) (f : Grid → Grid) : (s.modGrid n f).msix = s.msix := rfl
@[simp] theorem modGrid_preq (n : Nat) (f : Grid → Grid) : (s.modGrid n f).preq = s.preq := rfl
@[simp] theorem modGrid_lastQueue (n : Nat) (f : Grid → Grid) : (s.modGrid n f).lastQueue = s.lastQueue := rfl
@[simp] theorem modGrid_arrivals (n : Nat) (f : Grid → Grid) : (s.modGrid n f).arrivals = s.arrivals := rfl
@[simp] theorem modGrid_rung (n : Nat) (f : Grid → Grid) : (s.modGrid n f).rung = s.rung := rfl
@[simp] theorem modGrid_bells (n : Nat) (f : Grid → Grid) : (s.modGrid n f).bells = s.bells := rfl
@[simp] theorem modGrid_belated (n : Nat) (f : Grid → Grid) : (s.modGrid n f).belated = s.belated := rfl
@[simp] theorem modGrid_late (n : Nat) (f : Grid → Grid) : (s.modGrid n f).late = s.late := rfl

@[simp] theorem modOp_me (n : Nat) (f : Op → Op) : (s.modOp n f).me = s.me := rfl
@[simp] theorem modOp_fr (n : Nat) (f : Op → Op) : (s.modOp n f).fr = s.fr := rfl
@[simp] theorem modOp_live (n : Nat) (f : Op → Op) : (s.modOp n f).live = s.live := rfl
@[simp] theorem modOp_groups (n : Nat) (f : Op → Op) : (s.modOp n f).groups = s.groups := rfl
@[simp] theorem modOp_ov (n : Nat) (f : Op → Op) : (s.modOp n f).ov = s.ov := rfl
@[simp] theorem modOp_ray (n : Nat) (f : Op → Op) : (s.modOp n f).ray = s.ray := rfl
@[simp] theorem modOp_rayLive (n : Nat) (f : Op → Op) : (s.modOp n f).rayLive = s.rayLive := rfl
@[simp] theorem modOp_rays (n : Nat) (f : Op → Op) : (s.modOp n f).rays = s.rays := rfl
@[simp] theorem modOp_codes (n : Nat) (f : Op → Op) : (s.modOp n f).codes = s.codes := rfl
@[simp] theorem modOp_ops (n : Nat) (f : Op → Op) : (s.modOp n f).ops = s.ops.map fun o => if o.id == n then f o else o := rfl
@[simp] theorem modOp_nextOp (n : Nat) (f : Op → Op) : (s.modOp n f).nextOp = s.nextOp := rfl
@[simp] theorem modOp_teams (n : Nat) (f : Op → Op) : (s.modOp n f).teams = s.teams := rfl
@[simp] theorem modOp_nextTeam (n : Nat) (f : Op → Op) : (s.modOp n f).nextTeam = s.nextTeam := rfl
@[simp] theorem modOp_grids (n : Nat) (f : Op → Op) : (s.modOp n f).grids = s.grids := rfl
@[simp] theorem modOp_nextGrid (n : Nat) (f : Op → Op) : (s.modOp n f).nextGrid = s.nextGrid := rfl
@[simp] theorem modOp_clusterBarriers (n : Nat) (f : Op → Op) : (s.modOp n f).clusterBarriers = s.clusterBarriers := rfl
@[simp] theorem modOp_tiles (n : Nat) (f : Op → Op) : (s.modOp n f).tiles = s.tiles := rfl
@[simp] theorem modOp_landings (n : Nat) (f : Op → Op) : (s.modOp n f).landings = s.landings := rfl
@[simp] theorem modOp_memory (n : Nat) (f : Op → Op) : (s.modOp n f).memory = s.memory := rfl
@[simp] theorem modOp_poison (n : Nat) (f : Op → Op) : (s.modOp n f).poison = s.poison := rfl
@[simp] theorem modOp_tags (n : Nat) (f : Op → Op) : (s.modOp n f).tags = s.tags := rfl
@[simp] theorem modOp_syncs (n : Nat) (f : Op → Op) : (s.modOp n f).syncs = s.syncs := rfl
@[simp] theorem modOp_lastReleases (n : Nat) (f : Op → Op) : (s.modOp n f).lastReleases = s.lastReleases := rfl
@[simp] theorem modOp_commits (n : Nat) (f : Op → Op) : (s.modOp n f).commits = s.commits := rfl
@[simp] theorem modOp_recent (n : Nat) (f : Op → Op) : (s.modOp n f).recent = s.recent := rfl
@[simp] theorem modOp_l1 (n : Nat) (f : Op → Op) : (s.modOp n f).l1 = s.l1 := rfl
@[simp] theorem modOp_icache (n : Nat) (f : Op → Op) : (s.modOp n f).icache = s.icache := rfl
@[simp] theorem modOp_l2i (n : Nat) (f : Op → Op) : (s.modOp n f).l2i = s.l2i := rfl
@[simp] theorem modOp_fills (n : Nat) (f : Op → Op) : (s.modOp n f).fills = s.fills := rfl
@[simp] theorem modOp_tlb (n : Nat) (f : Op → Op) : (s.modOp n f).tlb = s.tlb := rfl
@[simp] theorem modOp_walks (n : Nat) (f : Op → Op) : (s.modOp n f).walks = s.walks := rfl
@[simp] theorem modOp_unit (n : Nat) (f : Op → Op) : (s.modOp n f).unit = s.unit := rfl
@[simp] theorem modOp_now (n : Nat) (f : Op → Op) : (s.modOp n f).now = s.now := rfl
@[simp] theorem modOp_counted (n : Nat) (f : Op → Op) : (s.modOp n f).counted = s.counted := rfl
@[simp] theorem modOp_tick (n : Nat) (f : Op → Op) : (s.modOp n f).tick = s.tick := rfl
@[simp] theorem modOp_turn (n : Nat) (f : Op → Op) : (s.modOp n f).turn = s.turn := rfl
@[simp] theorem modOp_inputs (n : Nat) (f : Op → Op) : (s.modOp n f).inputs = s.inputs := rfl
@[simp] theorem modOp_lastRegion (n : Nat) (f : Op → Op) : (s.modOp n f).lastRegion = s.lastRegion := rfl
@[simp] theorem modOp_starts (n : Nat) (f : Op → Op) : (s.modOp n f).starts = s.starts := rfl
@[simp] theorem modOp_lqtab (n : Nat) (f : Op → Op) : (s.modOp n f).lqtab = s.lqtab := rfl
@[simp] theorem modOp_ctxtab (n : Nat) (f : Op → Op) : (s.modOp n f).ctxtab = s.ctxtab := rfl
@[simp] theorem modOp_prcnt (n : Nat) (f : Op → Op) : (s.modOp n f).prcnt = s.prcnt := rfl
@[simp] theorem modOp_tva (n : Nat) (f : Op → Op) : (s.modOp n f).tva = s.tva := rfl
@[simp] theorem modOp_tctx (n : Nat) (f : Op → Op) : (s.modOp n f).tctx = s.tctx := rfl
@[simp] theorem modOp_tlbBusy (n : Nat) (f : Op → Op) : (s.modOp n f).tlbBusy = s.tlbBusy := rfl
@[simp] theorem modOp_tlbRun (n : Nat) (f : Op → Op) : (s.modOp n f).tlbRun = s.tlbRun := rfl
@[simp] theorem modOp_icva (n : Nat) (f : Op → Op) : (s.modOp n f).icva = s.icva := rfl
@[simp] theorem modOp_icctx (n : Nat) (f : Op → Op) : (s.modOp n f).icctx = s.icctx := rfl
@[simp] theorem modOp_icBusy (n : Nat) (f : Op → Op) : (s.modOp n f).icBusy = s.icBusy := rfl
@[simp] theorem modOp_icRun (n : Nat) (f : Op → Op) : (s.modOp n f).icRun = s.icRun := rfl
@[simp] theorem modOp_mesh (n : Nat) (f : Op → Op) : (s.modOp n f).mesh = s.mesh := rfl
@[simp] theorem modOp_meshWritten (n : Nat) (f : Op → Op) : (s.modOp n f).meshWritten = s.meshWritten := rfl
@[simp] theorem modOp_ptpLock (n : Nat) (f : Op → Op) : (s.modOp n f).ptpLock = s.ptpLock := rfl
@[simp] theorem modOp_ptpOffset (n : Nat) (f : Op → Op) : (s.modOp n f).ptpOffset = s.ptpOffset := rfl
@[simp] theorem modOp_ptpGood (n : Nat) (f : Op → Op) : (s.modOp n f).ptpGood = s.ptpGood := rfl
@[simp] theorem modOp_wdog (n : Nat) (f : Op → Op) : (s.modOp n f).wdog = s.wdog := rfl
@[simp] theorem modOp_fqbase (n : Nat) (f : Op → Op) : (s.modOp n f).fqbase = s.fqbase := rfl
@[simp] theorem modOp_fqEn (n : Nat) (f : Op → Op) : (s.modOp n f).fqEn = s.fqEn := rfl
@[simp] theorem modOp_fqLog (n : Nat) (f : Op → Op) : (s.modOp n f).fqLog = s.fqLog := rfl
@[simp] theorem modOp_fqprod (n : Nat) (f : Op → Op) : (s.modOp n f).fqprod = s.fqprod := rfl
@[simp] theorem modOp_fqcons (n : Nat) (f : Op → Op) : (s.modOp n f).fqcons = s.fqcons := rfl
@[simp] theorem modOp_faults (n : Nat) (f : Op → Op) : (s.modOp n f).faults = s.faults := rfl
@[simp] theorem modOp_fqSignalled (n : Nat) (f : Op → Op) : (s.modOp n f).fqSignalled = s.fqSignalled := rfl
@[simp] theorem modOp_budgets (n : Nat) (f : Op → Op) : (s.modOp n f).budgets = s.budgets := rfl
@[simp] theorem modOp_charges (n : Nat) (f : Op → Op) : (s.modOp n f).charges = s.charges := rfl
@[simp] theorem modOp_window (n : Nat) (f : Op → Op) : (s.modOp n f).window = s.window := rfl
@[simp] theorem modOp_clusters (n : Nat) (f : Op → Op) : (s.modOp n f).clusters = s.clusters := rfl
@[simp] theorem modOp_cecnt (n : Nat) (f : Op → Op) : (s.modOp n f).cecnt = s.cecnt := rfl
@[simp] theorem modOp_uecnt (n : Nat) (f : Op → Op) : (s.modOp n f).uecnt = s.uecnt := rfl
@[simp] theorem modOp_ueaddr (n : Nat) (f : Op → Op) : (s.modOp n f).ueaddr = s.ueaddr := rfl
@[simp] theorem modOp_uesrc (n : Nat) (f : Op → Op) : (s.modOp n f).uesrc = s.uesrc := rfl
@[simp] theorem modOp_ueSignalled (n : Nat) (f : Op → Op) : (s.modOp n f).ueSignalled = s.ueSignalled := rfl
@[simp] theorem modOp_ready (n : Nat) (f : Op → Op) : (s.modOp n f).ready = s.ready := rfl
@[simp] theorem modOp_failed (n : Nat) (f : Op → Op) : (s.modOp n f).failed = s.failed := rfl
@[simp] theorem modOp_trip (n : Nat) (f : Op → Op) : (s.modOp n f).trip = s.trip := rfl
@[simp] theorem modOp_firmware (n : Nat) (f : Op → Op) : (s.modOp n f).firmware = s.firmware := rfl
@[simp] theorem modOp_firmwareNext (n : Nat) (f : Op → Op) : (s.modOp n f).firmwareNext = s.firmwareNext := rfl
@[simp] theorem modOp_firmwareKept (n : Nat) (f : Op → Op) : (s.modOp n f).firmwareKept = s.firmwareKept := rfl
@[simp] theorem modOp_mctp (n : Nat) (f : Op → Op) : (s.modOp n f).mctp = s.mctp := rfl
@[simp] theorem modOp_msix (n : Nat) (f : Op → Op) : (s.modOp n f).msix = s.msix := rfl
@[simp] theorem modOp_preq (n : Nat) (f : Op → Op) : (s.modOp n f).preq = s.preq := rfl
@[simp] theorem modOp_lastQueue (n : Nat) (f : Op → Op) : (s.modOp n f).lastQueue = s.lastQueue := rfl
@[simp] theorem modOp_arrivals (n : Nat) (f : Op → Op) : (s.modOp n f).arrivals = s.arrivals := rfl
@[simp] theorem modOp_rung (n : Nat) (f : Op → Op) : (s.modOp n f).rung = s.rung := rfl
@[simp] theorem modOp_bells (n : Nat) (f : Op → Op) : (s.modOp n f).bells = s.bells := rfl
@[simp] theorem modOp_belated (n : Nat) (f : Op → Op) : (s.modOp n f).belated = s.belated := rfl
@[simp] theorem modOp_late (n : Nat) (f : Op → Op) : (s.modOp n f).late = s.late := rfl

end Sys2Proof.Machine
end

