-- ==== Sys2Proof/Laws/Parts.lean ====
section
/-!
SUPPORT. Looking up groups, teams, grids and operations after one of them has changed, events that find nothing selected, and what the
shared operations of the device leave alone.
-/
namespace Sys2Proof.Machine

/-- A lookup by key in a list whose members have changed under their keys. -/
theorem find?_mapKey {α : Type} (key : α → Nat) (f : α → α) (hf : ∀ x, key (f x) = key x) (l : List α) (k : Nat) :
    (l.map f).find? (fun x => key x == k) = (l.find? fun x => key x == k).map f := by
  induction l with
  | nil => rfl
  | cons x rest ih =>
    simp only [List.map_cons, List.find?_cons, hf]
    split
    · rfl
    · exact ih

theorem team?_modTeam (s : State) (n k : Nat) (f : Team → Team) (hf : ∀ t, (f t).serial = t.serial) :
    (s.modTeam n f).team? k = (s.team? k).map fun t => if t.serial == n then f t else t :=
  find?_mapKey Team.serial _ (fun t => by split <;> simp [hf]) s.teams k

theorem grid?_modGrid (s : State) (n k : Nat) (f : Grid → Grid) (hf : ∀ g, (f g).key = g.key) :
    (s.modGrid n f).grid? k = (s.grid? k).map fun g => if g.key == n then f g else g :=
  find?_mapKey Grid.key _ (fun g => by split <;> simp [hf]) s.grids k

theorem op?_modOp (s : State) (n k : Nat) (f : Op → Op) (hf : ∀ o, (f o).id = o.id) :
    (s.modOp n f).op? k = (s.op? k).map fun o => if o.id == n then f o else o :=
  find?_mapKey Op.id _ (fun o => by split <;> simp [hf]) s.ops k

/-- With nothing selected, a change of a group is a change in the list. -/
theorem modGroup_idle (s : State) (n : Nat) (f : Group → Group) (h : s.live = false) :
    s.modGroup n f = { s with groups := s.groups.map fun g => if g.gs == n then f g else g } := by
  simp [State.modGroup, h]

theorem group?_modGroup (s : State) (n k : Nat) (f : Group → Group) (h : s.live = false) (hf : ∀ g, (f g).gs = g.gs) :
    (s.modGroup n f).group? k = (s.group? k).map fun g => if g.gs == n then f g else g := by
  rw [modGroup_idle s n f h]
  exact find?_mapKey Group.gs _ (fun g => by split <;> simp [hf]) s.groups k

/-- A member that a lookup finds has the key looked up, and is in the list. -/
theorem team?_some {s : State} {k : Nat} {t : Team} (h : s.team? k = some t) : t.serial = k ∧ t ∈ s.teams :=
  ⟨by simpa using List.find?_some h, List.mem_of_find?_eq_some h⟩

theorem grid?_some {s : State} {k : Nat} {g : Grid} (h : s.grid? k = some g) : g.key = k ∧ g ∈ s.grids :=
  ⟨by simpa using List.find?_some h, List.mem_of_find?_eq_some h⟩

theorem group?_some {s : State} {k : Nat} {g : Group} (h : s.group? k = some g) : g.gs = k ∧ g ∈ s.groups :=
  ⟨by simpa using List.find?_some h, List.mem_of_find?_eq_some h⟩

theorem op?_some {s : State} {k : Nat} {o : Op} (h : s.op? k = some o) : o.id = k ∧ o ∈ s.ops :=
  ⟨by simpa using List.find?_some h, List.mem_of_find?_eq_some h⟩

/-! ## Nothing selected -/

theorem park_idle {s : State} (h : s.live = false) : s.park = s := by simp [State.park, h]
theorem parkRay_idle {s : State} (h : s.rayLive = false) : s.parkRay = s := by simp [State.parkRay, h]
theorem anyGroup?_idle {s : State} (h : s.live = false) (n : Nat) : s.anyGroup? n = s.group? n := by simp [State.anyGroup?, h]
theorem allGroups_idle {s : State} (h : s.live = false) : s.allGroups = s.groups := by simp [State.allGroups, h]

/-- An event that finds nothing selected applies its function. -/
theorem happen_idle {s : State} (f : State → State) (h : Idle s) : happen f s = .next (f s) := by
  unfold happen; rw [park_idle h.1, parkRay_idle h.2]

theorem happens_of {i : Instr} {s : State} {P : State → Prop} (f : State → State) (e : exec i s = happen f s) (h : Idle s)
    (p : P (f s)) : Happens i s P := ⟨f s, by rw [e, happen_idle f h], p⟩

/-! ## What shared operations leave -/

/-- Requests that are over change the list of requests and the signals, nothing else. -/
theorem settleRequests_eq (s : State) :
    s.settleRequests = { s with preq := s.settleRequests.preq, msix := s.settleRequests.msix } := rfl

/-- Woken watches change the fragments of groups, nothing else. -/
theorem wakeAll_eq (s : State) : s.wakeAll = { s with me := s.wakeAll.me, fr := s.wakeAll.fr, groups := s.wakeAll.groups } := rfl

/-- A store at its home changes memory, poison and the watches' fragments. -/
theorem storeBytes_eq (s : State) (k : Nat) (bs : List Byte) :
    s.storeBytes k bs = { s with
      memory := (s.storeBytes k bs).memory, poison := (s.storeBytes k bs).poison, me := (s.storeBytes k bs).me
      fr := (s.storeBytes k bs).fr, groups := (s.storeBytes k bs).groups } := by
  unfold State.storeBytes; rw [wrBytes_eq]; rfl

end Sys2Proof.Machine
end

