-- ==== Sys2Proof/Laws/Saves.lean ====
section
/-!
SUPPORT. What the writes of a save leave alone, and a save from its parts (R405, R408).
-/
namespace Sys2Proof.Machine

/-- Blocks written change memory and poison alone. -/
theorem writeBlocks_keeps {grid ctx : Nat} {xs : List (Nat × Nat × List Byte)} : ∀ {s t : State}, s.writeBlocks grid ctx xs = .ok t →
    t = { s with memory := t.memory, poison := t.poison } := by
  induction xs with
  | nil => intro s t e; cases e; rfl
  | cons x rest ih =>
    intro s t e
    simp only [State.writeBlocks] at e
    split at e
    · rename_i u h
      have := ih e
      rw [deviceWrite_eq h] at this
      exact this
    · cases e

theorem writeBlocks_append {s t : State} {grid ctx : Nat} {xs ys : List (Nat × Nat × List Byte)} (h : s.writeBlocks grid ctx xs = .ok t) :
    s.writeBlocks grid ctx (xs ++ ys) = t.writeBlocks grid ctx ys := by
  induction xs generalizing s with
  | nil => cases h; rfl
  | cons x rest ih =>
    simp only [State.writeBlocks, List.cons_append] at h ⊢
    split at h
    · exact ih h
    · cases h

/-- A save that passes each of its parts is done. -/
theorem saveOne_of {s m b c d : State} {ctx u : Nat} {t : Team} {slots : List (Nat × Nat × List Byte)}
    (hm : (s.mapUnit t.grid ctx u true).map (fun a => a.modTeam t.serial fun t => { t with unit := some u }) = some m)
    (hb : m.writeAllParked (m.liveGroups t.serial) = .ok b) (hs : b.slotImages ctx t = .ok slots)
    (hc : b.writeBlocks t.grid ctx slots = .ok c)
    (hd : c.writeBlocks t.grid ctx (b.unitImage t (m.saveRanges t) (b.saBase ctx + u * b.saUnit ctx)) = .ok d) :
    ∃ e, s.saveOne ctx u t = .ok e := by
  obtain ⟨a, ha, rfl⟩ := Option.map_eq_some_iff.mp hm
  unfold State.saveOne
  simp only [ha, hb, hs, writeBlocks_append hc, hd]
  exact ⟨_, rfl⟩

/-- The state after blocks that can be written is, to all but memory and poison, the one before: it is enough that the others can be
written where these differ. -/
theorem writeBlocks_then {s t : State} {grid ctx : Nat} {xs ys : List (Nat × Nat × List Byte)} (h : s.writeBlocks grid ctx xs = .ok t)
    {r : Except (Nat × Nat) State} (hy : ({ s with memory := t.memory, poison := t.poison } : State).writeBlocks grid ctx ys = r) :
    t.writeBlocks grid ctx ys = r := by
  rw [← writeBlocks_keeps h] at hy
  exact hy

end Sys2Proof.Machine
end

