-- ==== Sys2Proof/Tests/Slice0.lean ====
section
/-!
SUPPORT. Tests: terms that well-formedness refuses, words of the encoding tables, single steps, and a state and operands that meet the
hypotheses of each statement. Expected values are worked out from the spec's tables and rules.
-/
namespace Sys2Proof.Tests
set_option Elab.async false
open Sys2Proof Sys2Proof.Machine

/-! ## Terms that are not well-formed, one for each check -/

/-- A field past its width. -/
theorem test_refuses_wide_field : wordOk (.smovi 4 0x40000) = false ∧ wordOk (.smovi 4 0x3FFFF) = true := by decide
/-- A value that the entry does not allow (R104, R109, R127, R131, R137). -/
theorem test_refuses_value : wordOk (.setm 0x4000) = false ∧ wordOk (.sync 0) = false ∧ wordOk (.rscope 113) = false
    ∧ wordOk (.sprr 4 13) = false ∧ wordOk (.ulane 4 20 32) = false ∧ wordOk (.ulane 4 20 31) = true := by decide
/-- A microword's field (R276 to R283). -/
theorem test_refuses_micro_value : wordOk (.uHitc 3) = false ∧ wordOk (.uCntr 3 0) = false ∧ wordOk (.uJz 8 0 0) = false := by decide
/-- An odd number where a pair is named (R79). -/
theorem test_refuses_odd_pair : wordOk (.jmps 5) = false ∧ wordOk (.clkr 11) = false ∧ wordOk (.jmps 6) = true := by decide
/-- Registers that the machine has not (R81, R135, R137). -/
theorem test_refuses_register : wordOk (.ulane 64 20 3) = false ∧ wordOk (.ufirst 64 20) = false ∧ wordOk (.iadd 112 1 2) = false
    ∧ wordOk (.iadd 3 112 113) = false ∧ wordOk (.iadd 3 112 2) = true ∧ wordOk (.ldB128 109 2 2 0) = false := by decide
/-- An ill-formed term as the statements name it. -/
theorem test_ill_formed : ¬ WellFormed (.ulane 4 20 32) := by unfold WellFormed; decide

/-! ## Words written out from the encoding tables -/

theorem test_decode_control : decodeTableWord 32 0x02002553 = some (.setm 0x2553) ∧ decodeTableWord 32 0x03204020 = some (.bra 1 0 16 32)
    ∧ decodeTableWord 32 0x04201800 = some (.bru 1 0 6 0) ∧ decodeTableWord 32 0x130E0004 = some (.sprr 7 4)
    ∧ decodeTableWord 32 0x15280000 = some (.clkr 10) := by decide
theorem test_decode_lane_to_uniform : decodeTableWord 32 0x16185000 = some (.ufirst 12 20)
    ∧ decodeTableWord 32 0x17005000 = some (.uchk 20) ∧ decodeTableWord 32 0x181A501F = some (.ulane 13 20 31) := by decide
theorem test_decode_scalar : decodeTableWord 32 0x19081430 = some (.sadd 4 5 6) ∧ decodeTableWord 32 0x23081431 = some (.smulh 4 5 6 1)
    ∧ decodeTableWord 32 0x2604102E = some (.scmp 2 4 5 6) ∧ decodeTableWord 32 0x27060413 = some (.qop 3 1 2 3)
    ∧ decodeTableWord 32 0x2813FFFE = some (.smovi 4 0x3FFFE) := by decide
theorem test_decode_scalar_memory : decodeTableWord 32 0x2910FF00 = some (.smovh 4 0xFF00)
    ∧ decodeTableWord 32 0x2A040001 = some (.sld 2 0 0 1) := by decide
theorem test_decode_vector : decodeTableWord 32 0x54041804 = some (.icmp 2 6 0 4) ∧ decodeTableWord 32 0x570A03FF = some (.movi 5 1023)
    ∧ decodeTableWord 32 0x5808081B = some (.lea 4 2 3 3) ∧ decodeTableWord 32 0x59060410 = some (.plop 3 1 2 0)
    ∧ decodeTableWord 32 0x5A0C1BFD = some (.iaddImm 6 6 1021) := by decide
theorem test_decode_fields : decodeTableWord 32 0x5B0604FF = some (.andImm 3 1 255) ∧ decodeTableWord 32 0x520C0410 = some (.bfe 6 1 2)
    ∧ decodeTableWord 32 0x62040BA0 = some (.fmul 2 2 116) ∧ decodeTableWord 32 0x80040802 = some (.tseed 2 2 2)
    ∧ decodeTableWord 32 0x950E1399 = some (.scan 7 4 115 1) := by decide
theorem test_decode_memory : decodeTableWord 32 0xA4040421 = some (.ldB32 2 1 2 1) := by decide
theorem test_decode_engine : decodeTableWord 32 0xD750A020 = some (.cruz 40 20 2 0) ∧ decodeTableWord 32 0xD90AE000 = some (.crld 5 28 0)
    ∧ decodeTableWord 32 0xE0292020 = some (.ralc 20 36 2 0) := by decide
/-- The spec's own example of a microword; as a kernel word that value is ANDN. -/
theorem test_decode_micro : (decodeMicro 0x4B018000).toOption = some (.uJz 3 12 0) := by decide
/-- NOP has no other bit (R105); the opcode 0 has no entry (R91). -/
theorem test_decode_refuses : decodeTableWord 32 0x01000001 = none ∧ decodeTableWord 32 0x00000000 = none := by decide

/-! ## States that meet the hypotheses of the statements -/

/-- A running fragment of 32 lanes at the probe's code, under D = `d` and this MR, with these scalars. -/
def lab (d : Fin 9) (mr : Nat) (sregs : List (Nat × Word)) : State :=
  { State.reset with
    live := true, ready := 0xFFF
    me := { probeGroup with frags := [], tangents := d, sregs := sregs }
    fr := { Frag.empty with pc := BitVec.ofNat 64 (probeBase + probeCode), mr := mr, exec := BitVec.allOnes 32, st := .running }
    teams := [probeTeam], grids := [probeGrid]
    tlb := [{ ctx := 0, va := probeBase, size := 2 ^ 32, base := 0, flags := 0xE0 }] }

/-- `Free` as a test. -/
def passes (i : Instr) (s : State) : Bool := s.live && match s.gate i with | .go => true | _ => false
theorem free_of {i : Instr} {s : State} (h : passes i s = true) : Free i s := by
  unfold passes at h
  simp only [Bool.and_eq_true] at h
  refine ⟨h.1, ?_⟩
  cases hg : s.gate i <;> simp_all
theorem free_all {is : List Instr} {s : State} (h : (is.all fun i => passes i s) = true) : ∀ i ∈ is, Free i s :=
  fun i hi => free_of (List.all_eq_true.mp h i hi)

/-- D = 0 and F32; D = 2 with planes; signed 32-bit integers; signed bytes with SAT; no active lane (guard p1, which holds nowhere). -/
def plain : State := lab 0 0x0002 [(4, 7), (5, 0xFFFFFFFF)]
def dual : State := lab 2 0x2002 []
def whole32 : State := lab 0 0x0000 []
def bytes8 : State := lab 0 0x0807 []
def nobody : State := lab 0 0x0082 []

theorem test_meets_ScalarArithmetic : ∀ i ∈ [Instr.sadd 0 4 63, .ssub 63 4 5, .smul 6 4 5, .sand 6 4 5, .sor 6 4 5, .sxor 6 4 5,
    .sshl 6 4 5, .sshr 6 4 5, .ssar 6 5 4, .smov 6 4, .smulh 6 4 5 0, .smulh 6 4 5 1, .smin 6 4 5 0, .smin 6 4 5 1, .smax 6 4 5 0,
    .smax 6 4 5 1], Free i plain := free_all (by decide)
theorem test_meets_ScalarConstants : ∀ i ∈ [Instr.smovi 63 0x3FFFF, .smovh 0 0x3FFFF, .execr 6], Free i plain := free_all (by decide)
theorem test_meets_UniformPredicates :
    ∀ i ∈ [Instr.scmp 7 4 5 7, .scmp 0 4 5 0, .qop 7 1 2 7, .qop 0 7 0 0], Free i plain := free_all (by decide)
theorem test_meets_LaneToUniform : (∀ i ∈ [Instr.ufirst 6 111, .ulane 6 0 31, .ulane 63 112 0, .ballot 6 7, .eqmask 6 2, .uchk 127], Free i plain)
    ∧ Free (.ufirst 6 111) nobody ∧ nobody.active = 0 ∧ plain.active.getLsbD 0 = true := by
  exact ⟨free_all (by decide), free_of (by decide), by decide, by decide⟩
/-- Lanes 3 and 4 differ. -/
def torn : State := { plain with me := { plain.me with vregs := [(vkey 1 0 3, 9)] } }
theorem test_meets_LaneToUniform_trap : Free (.uchk 1) torn ∧ torn.active.getLsbD 3 = true ∧ torn.active.getLsbD 4 = true
    ∧ torn.srcV 1 3 ≠ torn.srcV 1 4 := ⟨free_of (by decide), by decide, by decide, by decide⟩
theorem test_meets_SpecialRegisters : (∀ i ∈ [Instr.sprr 6 1, .sprr 6 2, .sprr 6 3, .sprr 6 4, .sprr 6 5, .sprr 6 6, .sprr 6 7, .sprr 6 8,
    .sprr 6 10, .sprr 6 11, .sprr 6 12, .sprr 111 0, .sprr 111 9, .sprw 5 9, .sprw 5 12, .clkr 62], Free i plain)
    ∧ ∀ tm, plain.myTeam = some tm → tm.tiles.length ≤ 16 := by
  refine ⟨free_all (by decide), ?_⟩
  intro tm h
  have : plain.myTeam = some probeTeam := by decide
  rw [this] at h
  cases h
  decide

def integers : List Instr := [.iadd 1 2 3, .isub 1 2 3, .imul 1 2 3, .imulh 1 2 3, .imad 1 2 3, .imin 1 2 3, .imax 1 2 3, .iabs 1 2,
  .iaddImm 1 2 1023, .shl 1 2 3, .shr 1 2 3, .sar 1 2 3, .shlImm 1 2 31, .shrImm 1 2 31, .sarImm 1 2 31]
theorem test_meets_IntegerArithmetic : (∀ i ∈ integers, Free i whole32) ∧ ∀ i ∈ integers, Free i bytes8 :=
  ⟨free_all (by decide), free_all (by decide)⟩
theorem test_meets_ElementShifts : ∀ i ∈ integers, Free i bytes8 := free_all (by decide)
theorem test_meets_WholeWord : ∀ i ∈ [Instr.vand 1 2 3, .vor 1 2 3, .vxor 1 2 3, .vandn 1 2 3, .lea 1 2 3 0, .lea 1 2 3 7, .movi 111 512,
    .andImm 1 2 1023, .orImm 1 2 0], Free i plain := free_all (by decide)
theorem test_meets_BitFields : ∀ i ∈ [Instr.popc 1 2, .clz 1 2, .brev 1 2, .bfe 1 2 3, .bfi 1 2 3], Free i plain := free_all (by decide)
theorem test_meets_LanePredicates : ∀ i ∈ [Instr.icmp 0 2 3 0, .icmp 7 2 3 5, .plop 7 1 2 7, .plop 0 1 2 0, .fcmp 7 2 3 0, .fcmp 1 2 3 5,
    .tflag 7 2], Free i plain := free_all (by decide)
theorem test_meets_DataMoves : (∀ i ∈ [Instr.mov 1 2, .sel 1 2 3 7, .shfl 1 2 3 0, .shfl 1 2 3 1, .shfl 1 2 3 2, .shfl 1 2 3 3], Free i dual)
    ∧ mrTe dual.mr = true ∧ (∀ i ∈ [Instr.mov 1 2, .sel 1 2 3 0], Free i plain) ∧ mrTe plain.mr = false :=
  ⟨free_all (by decide), by decide, free_all (by decide), by decide⟩

def floats : List Instr := [.fadd 1 2 3, .fsub 1 2 3, .fmul 1 2 3, .ffma 1 2 3, .fmin 1 2 3, .fmax 1 2 3, .fabs 1 2, .fneg 1 2, .frint 1 2,
  .fsat 1 2, .sqrt 1 2, .rcp 1 2, .rsq 1 2, .ex2 1 2, .lg2 1 2, .sin 1 2, .cos 1 2, .tanh 1 2, .sigm 1 2]
theorem test_meets_FloatInstructions : (∀ i ∈ floats, Free i plain) ∧ ∀ i ∈ floats, Free i dual :=
  ⟨free_all (by decide), free_all (by decide)⟩
theorem test_meets_ClassAndConvert : (∀ i ∈ [Instr.fclass 1 2, .fcvt 1 2 8], Free i plain) ∧ mrTe plain.mr = false ∧ mrEt plain.mr = 2 :=
  ⟨free_all (by decide), by decide, by decide⟩
theorem test_meets_TangentPlanes : ∀ i ∈ [Instr.tseed 1 2 0, .tseed 1 2 1, .tget 1 2 1, .tset 1 2 1, .tset 1 2 0, .tclr 1], Free i dual :=
  free_all (by decide)
theorem test_meets_TangentFunctions : (∀ i ∈ [Instr.tlin 1 2 3, .tfoot 1 2 3], Free i dual)
    ∧ (∀ i ∈ [Instr.tlin 1 2 3, .tfoot 1 2 3], Free i plain) ∧ plain.d = 0 ∧ plain.me.sx = none :=
  ⟨free_all (by decide), free_all (by decide), by decide, by decide⟩
theorem test_meets_Reduction : (∀ i ∈ [Instr.redu 1 2 0, .redu 1 2 3, .redu 1 2 4, .redu 1 2 5], Free i whole32) ∧ mrEt whole32.mr ≤ 1
    ∧ mrSat whole32.mr = false ∧ whole32.active ≠ 0 := ⟨free_all (by decide), by decide, by decide, by decide⟩
theorem test_meets_ScanAdds : (∀ i ∈ [Instr.scan 1 2 3 0, .scan 1 2 3 1], Free i whole32) ∧ whole32.active.getLsbD 31 = true :=
  ⟨free_all (by decide), by decide⟩
theorem test_meets_IndexOfExtreme : (∀ i ∈ [Instr.minidx 1 2 0, .minidx 1 2 1], Free i whole32) ∧ whole32.active ≠ 0 :=
  ⟨free_all (by decide), by decide⟩
theorem test_meets_RowStatistics : ∀ i ∈ [Instr.welf 1 4 8, .smxm 1 4 8, .smxn 1 4 8 2], Free i dual := free_all (by decide)

/-! ### Issue, traps and returns -/

/-- `v4` is in the pending set of a window of length 3 that has two instructions left. -/
def ahead : State := { plain with fr := { plain.fr with wins := [{ op := 0, la := 3, left := 2, regs := [4, 132] }] } }
theorem test_meets_IssueChecks : [plain, ahead].all (fun s => s.live && !s.waitsFirst && s.dueTrap.isNone && !s.dueBlocked) = true
    ∧ plain.checksOk (.ulane 4 20 32) = false ∧ plain.siblingPending (.ulane 4 20 32) = false ∧ plain.txBroken (.ulane 4 20 32) = false
    ∧ ahead.checksOk (.smov 6 4) = true ∧ ahead.lookahead (.smov 6 4) = some 2 ∧ ahead.siblingPending (.smov 6 4) = false
    ∧ ahead.txBroken (.smov 6 4) = false ∧ plain.checksOk (.ralc 20 36 2 0) = true ∧ plain.lookahead (.ralc 20 36 2 0) = none
    ∧ plain.handleTrap (.ralc 20 36 2 0) = some 0 ∧ plain.txBroken (.ralc 20 36 2 0) = false := by decide
/-- An odd address pair; the guard leaves no lane, and the trap has those of EXEC. -/
theorem test_meets_IssueChecks_sld : nobody.live = true ∧ nobody.waitsFirst = false ∧ nobody.dueTrap = none ∧ nobody.dueBlocked = false
    ∧ nobody.siblingPending (.sld 4 1 9 0) = false ∧ nobody.txBroken (.sld 4 1 9 0) = false ∧ nobody.checksOk (.sld 4 1 9 0) = false
    ∧ nobody.fr.exec ≠ nobody.active := by decide
theorem test_meets_IssueChecks_word : Free (.evIllegalWord 0) plain := free_of (by decide)

/-- Context 0's slots at a mapped address, and a packet with a trap vector. -/
def slots : Nat := probeBase + 2 ^ 31
def ready : State :=
  { plain with
    memory := [(12, 0x80), (13, 1)].map fun x => (x.1 - 1, BitVec.ofNat 8 x.2)
    grids := [{ probeGrid with packet := setField probeGrid.packet 0x28 8 (probeBase + 0x50000) }] }
theorem test_meets_TrapEntry : ready.csbase 0 = slots ∧ ready.me.handler = none ∧ ready.trapVector ≠ 0
    ∧ (ready.writeFrame (Trap.plain 4 0 0) 0 0 [] false).isSome = true ∧ ready.frameWaits (Trap.plain 4 0 0) 0 0 [] false = false := by
  decide +kernel
theorem test_meets_TrapInstruction : Free (.trap 5) ready ∧ ready.undrained = false ∧ ready.me.tx.st = .none
    ∧ (let q := (ready.withdrawn.map fun (o : Op) => { o.cap with withdrawn := true, trapping := false }) ++ ready.stamp.fr.inject
       ((ready.stamp.dropOps ready.withdrawn).writeFrame (Trap.plain 11 5 ready.fr.exec) (wordOf (.trap 5)) ready.nextPc q false).isSome
       && !(ready.stamp.dropOps ready.withdrawn).frameWaits (Trap.plain 11 5 ready.fr.exec) (wordOf (.trap 5)) ready.nextPc q false)
      = true := ⟨free_of (by decide), by decide, by decide, by decide +kernel⟩
/-- Inside a handler whose frame says EXEC = 0xF0. -/
def held : Handler :=
  { frag := 0, frame := slots + 0x4000, heldLanes := BitVec.allOnes 32, clr := 0, joins := [], queue := [], fpc := 0x100, token := none
    tx := Tx.idle }
def inside : State := { ready with memory := ready.memory ++ [(2 ^ 31 + 0x4010, 0xF0)], me := { ready.me with handler := some held } }
theorem test_meets_TrapReturn : Free .tret plain ∧ plain.me.handler = none ∧ Free .tret inside ∧ inside.returnWaits held = false
    ∧ (inside.deviceRead inside.myGridKey inside.me.ctx (held.frame + 0x10) 0x1C).map (fun h => fieldAt h 0 4) = some 0xF0
    ∧ inside.rereadQueue inside.myGridKey inside.me.ctx held.frame inside.d 0 imageOffset held.queue = some []
    ∧ BitVec.ofNat 32 0xF0 &&& held.heldLanes ≠ 0 :=
  ⟨free_of (by decide), by decide, free_of (by decide), by decide, by decide, by decide, by decide⟩

/-! ### Control flow -/

theorem test_meets_ModeAndNop : (∀ i ∈ [Instr.nop, .setm 0, .setm 0x3FFF], Free i plain)
    ∧ Free (.evIllegalWord 0x01000001) plain ∧ Free (.evIllegalWord 0x01FFFFFF) plain :=
  ⟨free_all (by decide), free_of (by decide), free_of (by decide)⟩
/-- p1 holds in the low half, q1 in none; s8:s9 is aligned, s10:s11 is not. -/
def fork : State :=
  { plain with me := { plain.me with preds := [(1, 0xFFFF)], sregs := [(8, 0x100), (10, 0x102)] } }
def deep (n : Nat) : State := { fork with fr := { fork.fr with links := List.replicate n 0x40 } }
theorem test_meets_WholeFragmentTransfers :
    (∀ i ∈ [Instr.bra 0 0 16 0, .bra 0 1 16 0, .bru 0 0 512 0, .bru 0 1 511 0, .jmps 8, .jmps 10, .call 0 0 16, .call 0 1 16, .calls 8,
      .calls 10, .ret], Free i fork)
    ∧ fork.branchLanes 0 0 = fork.fr.exec ∧ fork.branchLanes 0 1 = 0 ∧ fork.fr.exec ≠ 0 ∧ fork.rdQ 0 = true ∧ fork.rdQ 1 = false
    ∧ (fork.rdS64 8).toNat % 4 = 0 ∧ (fork.rdS64 10).toNat % 4 ≠ 0 ∧ fork.fr.links = []
    ∧ Free (.calls 8) (deep 32) ∧ (deep 32).fr.links.length = 32 ∧ Free .ret (deep 1) ∧ Free (.calls 8) (deep 31) :=
  ⟨free_all (by decide), by decide, by decide, by decide, by decide, by decide, by decide, by decide, by decide, free_of (by decide),
    by decide, free_of (by decide), free_of (by decide)⟩
/-- Every split record in use, and `n` overflow entries. -/
def packed (n : Nat) : State :=
  let j : Join := { spill := false, slot := 0, addr := none, depth := 0, mask := 0, wait := 0, clr := 0, mr := 2, links := [], arrival := none
                    dmask := 0, dpc := 0, dstate := 0 }
  { fork with me := { fork.me with joins := (List.range 8).map (fun i => { j with slot := i })
                                              ++ (List.range n).map fun i => { j with spill := true, slot := i } } }
theorem test_meets_BranchSplits : (∀ i ∈ [Instr.bra 1 0 16 0, .bra 1 0 16 1023, .call 1 1 16], Free i fork)
    ∧ fork.branchLanes 1 0 ≠ 0 ∧ fork.branchLanes 1 0 ≠ fork.fr.exec ∧ fork.branchLanes 1 1 ≠ 0 ∧ fork.me.splitRecords ≠ 8
    ∧ Free (.bra 1 0 16 0) (packed 16) ∧ (packed 16).me.splitRecords = 8 ∧ (packed 16).me.overDepth = 16
    ∧ Free (.bra 1 0 16 0) (packed 15) ∧ (packed 15).me.overDepth ≠ 16 :=
  ⟨free_all (by decide), by decide, by decide, by decide, by decide, free_of (by decide), by decide, by decide, free_of (by decide),
    by decide⟩
/-- A CALL that holds in every lane, or in some, at a full link stack; one that spills. -/
theorem test_meets_CallAtFullStack : Free (.call 0 0 16) (deep 32) ∧ (deep 32).branchLanes 0 0 = (deep 32).fr.exec ∧ (deep 32).fr.exec ≠ 0
    ∧ Free (.call 1 1 16) (deep 32) ∧ (deep 32).branchLanes 1 1 ≠ (deep 32).fr.exec ∧ (deep 32).branchLanes 1 1 ≠ 0 ∧ (deep 32).me.splitRecords ≠ 8
    ∧ (let s : State := { packed 15 with fr := (deep 32).fr }
       passes (.call 1 1 16) s = true ∧ s.fr.links.length = 32 ∧ s.me.splitRecords = 8 ∧ s.me.overDepth ≠ 16)
    ∧ Free (.call 1 0 16) (packed 16) ∧ Free (.call 1 0 16) (packed 15) ∧ (packed 15).fr.links.length ≠ 32 :=
  ⟨free_of (by decide), by decide, by decide, free_of (by decide), by decide, by decide, by decide, by decide, free_of (by decide),
    free_of (by decide), by decide⟩
/-- Inside a record that is open, or has the address 0x40; s12 names no lane that the fragment holds when CLR is 0 and EXEC the low half. -/
def joined (addr : Option Addr) : State :=
  { fork with
    fr := { fork.fr with exec := 0xFFFF }
    me := { fork.me with
      sregs := [(12, 0x10000), (13, 0x3)]
      joins := [{ spill := false, slot := 0, addr := addr, depth := 0, mask := 0xFFFF, wait := 0, clr := 0, mr := 2, links := [], arrival := none
                  dmask := 0, dpc := 0, dstate := 0 }] } }
theorem test_meets_LanesAndJoins : Free (.sync 1) (joined none) ∧ Free (.sync 1023) (joined (some 0x40)) ∧ Free (.sync 5) plain
    ∧ (((joined none).me.inner (joined none).fr.owned).map (·.addr)) = some none
    ∧ (((joined (some 0x40)).me.inner (joined (some 0x40)).fr.owned).map (·.addr)) = some (some 0x40)
    ∧ plain.me.inner plain.fr.owned = none ∧ Free (.execw 13) (joined none) ∧ Free (.execw 12) (joined none)
    ∧ (joined none).rdS 13 &&& ((joined none).fr.exec ||| (joined none).fr.clr) ≠ 0
    ∧ (joined none).rdS 12 &&& ((joined none).fr.exec ||| (joined none).fr.clr) = 0 :=
  ⟨free_of (by decide), free_of (by decide), free_of (by decide), by decide, by decide, by decide, free_of (by decide),
    free_of (by decide), by decide, by decide⟩
/-- The team of a cluster launch; the team with a request, its live maps in zeroed memory. -/
def clustered : State := { plain with teams := [{ probeTeam with cluster := some (0, [0, 0, 0, 0]) }] }
def asked : State :=
  { plain with
    teams := [{ probeTeam with request := some { since := 0, byDispatcher := none } }]
    grids := [{ probeGrid with packet := setField (setField probeGrid.packet 0x30 8 (probeBase + 0x60000)) 0x38 4 2 }] }
theorem test_meets_ExitStopYield : Free .exit clustered ∧ clustered.exitWaits = true ∧ Free .exit plain ∧ plain.exitWaits = false
    ∧ Free (.ppt 1) { asked with teams := [probeTeam] } ∧ ({ asked with teams := [probeTeam] } : State).requested = false ∧ Free (.ppt 1) asked ∧ asked.requested = true
    ∧ (match asked.engineRead asked.myGridKey asked.me.ctx (asked.packetField 0x30 8 + 64) 64 with
        | .ok e => liveMapOk asked.myBytes e | .error _ => false) = true
    ∧ Free .yield plain :=
  ⟨free_of (by decide), by decide, free_of (by decide), by decide, free_of (by decide), by decide, free_of (by decide), by decide,
    by decide, free_of (by decide)⟩
/-- 8 registers allocated, none or one scope of 4 open. -/
def nested (ns : List Nat) : State := { plain with me := { plain.me with alloc := 8, scopes := ns } }
theorem test_meets_Scopes : Free (.rscope 1) (nested []) ∧ Free (.rscope 104) (nested []) ∧ (nested []).me.frags = []
    ∧ (nested []).me.scopes.length ≠ 8 ∧ charge (nested []).d 112 ≤ 49152 ∧ (nested []).scopeFits 4 = true ∧ (nested []).scopeFits 104 = true
    ∧ (nested []).scopeTurn = true ∧ Free .rsend (nested [4]) ∧ (nested [4]).me.scopes = 4 :: [] :=
  ⟨free_of (by decide), free_of (by decide), by decide, by decide, by decide, by decide, by decide, by decide, free_of (by decide),
    by decide⟩

/-! ### Loads, stores, atomics, fences, barriers and transactions -/

/-- s8:s9 names mapped memory, s10 the control word of an atomic ADD of 32 bits; s16:s17 the group's own SRAM bytes. -/
def paired (d : Fin 9) : State :=
  { lab d (mrReset d.val) [] with
    me := { (lab d (mrReset d.val) []).me with
      sregs := [(8, 0x60000), (9, 1), (10, 2), (16, BitVec.ofNat 32 sramVa), (17, BitVec.ofNat 32 (sramVa / 2 ^ 32))] } }
/-- What a lane's address must be, at one size and need, with the key where it lies. -/
def reaches (s : State) (a k n key : Nat) (need : Need) : Prop := ∀ l, l < 32 → s.active.getLsbD l = true →
  s.laneAddr a k l % n = 0
    ∧ s.resolve s.myGridKey s.me.ctx (s.me.handler.map (·.frame)) need (s.laneAddr a k l) n = .ok key (decide (2 ^ 63 ≤ key))
theorem test_meets_VectorMemory : (∀ i ∈ [Instr.ldU8 4 12 8 1, .ldS8 4 12 8 1, .ldU16 4 12 8 1, .ldS16 4 12 8 1, .ldB32 4 12 8 1, .ldB64 4 12 8 1,
      .ldB128 4 12 8 15, .stB8 4 12 8 1, .stB16 4 12 8 1, .stB32 4 12 8 1, .stB64 4 12 8 1, .stB128 4 127 8 1, .atom 4 12 8 1, .red 4 12 8 1],
      Free i (paired 0))
    ∧ (paired 0).me.tx.st = .none ∧ (paired 0).active ≠ 0 ∧ floatAtomic [2] = false
    ∧ (∀ n ∈ [1, 2, 4, 8, 16], reaches (paired 0) 12 8 n 0x60000 Need.load ∧ reaches (paired 0) 12 8 n 0x60000 Need.store)
    ∧ reaches (paired 0) 12 8 4 0x60000 Need.both ∧ reaches (paired 0) 127 16 16 (2 ^ 63) Need.store := by
  refine ⟨free_all (by decide), by decide, by decide, by decide, ?_, ?_, ?_⟩ <;> unfold reaches <;> decide +kernel
theorem test_meets_TangentMemory : (∀ i ∈ [Instr.ldt 4 12 8 1, .stt 4 12 8 1, .sld 4 1 8 0, .sst 4 127 8 0, .marm 12 8 0, .prf 12 8 1], Free i (paired 2))
    ∧ reaches (paired 2) 12 8 4 0x60000 Need.load ∧ reaches (paired 2) 12 8 4 0x60000 Need.store ∧ (paired 2).fr.exec ≠ 0
    ∧ (∀ j, j ≤ 2 → (paired 2).resolve 0 0 none Need.both ((paired 2).laneAddr 12 8 0 + 4 * j) 4 = .ok (0x60000 + 4 * j) false)
    ∧ (let near := ((paired 2).rdS64 8 + BitVec.ofNat 64 (4 * 127)).toNat
       near % 4 = 0 ∧ (paired 2).resolve 0 0 none Need.store near 4 = .ok (0x60000 + 508) false) := by
  refine ⟨free_all (by decide), ?_, ?_, by decide, by decide +kernel, by decide⟩ <;> unfold reaches <;> decide +kernel

/-- Mapped are 1 MiB only, and the fault ring is in use: lane 0 lies at a mapped address, the others two bytes further, or two MiB. -/
def shy (d : Fin 9) (step : Nat) : State :=
  let s := paired d
  { s with
    fqEn := true, fqLog := 6
    tlb := s.tlb.map fun x => { x with size := 2 ^ 20 }
    me := { s.me with sregs := s.me.sregs ++ [(11, 0)], vregs := (List.range 31).map fun l => (vkey 12 0 (l + 1), BitVec.ofNat 32 step) } }
def parking : List Instr := [.ldU16 4 12 8 1, .ldS16 4 12 8 1, .ldB32 4 12 8 1, .ldB64 4 12 8 1, .ldB128 4 12 8 1, .stB16 4 12 8 1, .stB32 4 12 8 1,
  .stB64 4 12 8 1, .stB128 4 12 8 1, .atom 4 12 8 1, .red 4 12 8 1, .ldt 4 12 8 1, .stt 4 12 8 1]
/-- The fault of an address that is not mapped. -/
def absent (s : State) (need : Need) (va n : Nat) : Bool :=
  match s.resolve s.myGridKey s.me.ctx (s.me.handler.map (·.frame)) need va n with | .no why => why.service && why.cause != 0 | _ => false
theorem test_meets_VectorMemory_traps : (∀ i ∈ parking, Free i (shy 0 1)) ∧ (∀ n ∈ [2, 4, 8, 16], (shy 0 1).laneAddr 12 8 1 % n ≠ 0)
    ∧ (∀ n ∈ [2, 4, 8, 16], (shy 0 1).laneAddr 12 8 0 % n = 0) ∧ (∀ i ∈ parking, Free i (shy 0 (2 ^ 21)))
    ∧ (let s := shy 0 (2 ^ 21)
       s.ringInUse = true ∧ s.me.tx.st = .none ∧ ∀ need ∈ [Need.load, Need.store, Need.both], ∀ n ∈ [1, 2, 4, 8, 16],
         s.resolve 0 0 none need (s.laneAddr 12 8 0) n = .ok 0x60000 false
         ∧ ∀ l, l < 31 → s.laneAddr 12 8 (l + 1) % n = 0 ∧ absent s need (s.laneAddr 12 8 (l + 1)) n = true ∧ s.laneAddr 12 8 1 ≤ s.laneAddr 12 8 (l + 1))
    ∧ (let s : State := { shy 0 1 with fr := { (shy 0 1).fr with mr := 0x0082 } }
       s.active = 0 ∧ (parking.all fun i => passes i s) = true) :=
  ⟨free_all (by decide), by decide, by decide, free_all (by decide), by decide +kernel, by decide⟩
/-- The scalar pair's address, odd or not mapped; no lane for MARM; PRF whose requests find no budget, and PRF in a transaction. -/
theorem test_meets_TangentMemory_traps :
    (let s : State := { shy 2 1 with me := { (shy 2 1).me with sregs := [(8, 0x60001), (9, 1)] } }
     ([.sld 4 1 8 0, .sst 4 1 8 0, .marm 127 8 0].all fun i => passes i s) = true ∧ s.active ≠ 0
     ∧ (s.rdS64 8 + 4).toNat % 4 ≠ 0 ∧ s.laneAddr 127 8 (firstLane s.active) % 4 ≠ 0)
    ∧ (let s : State := { shy 2 1 with me := { (shy 2 1).me with sregs := [(8, 0x260000), (9, 1)] } }
       ([.sld 4 1 8 0, .sst 4 1 8 0, .marm 127 8 0].all fun i => passes i s) = true ∧ s.ringInUse = true
       ∧ absent s Need.load (s.rdS64 8 + 4).toNat 4 = true ∧ absent s Need.store (s.rdS64 8 + 4).toNat 4 = true
       ∧ absent s Need.load (s.laneAddr 127 8 0) 4 = true)
    ∧ (let s : State := { paired 2 with fr := { (paired 2).fr with mr := 0x0082 } }
       passes (.marm 12 8 0) s = true ∧ s.active = 0)
    ∧ ((paired 2).prefetch 12 8 (lanesOf (paired 2).active)).2 = false
    ∧ (let s : State := { paired 2 with budgets := [(0, { memb := 1, skb := 0, kshare := 0, rays := 0 })], charges := [(0, 1)] }
       passes (.prf 12 8 1) s = true ∧ s.me.tx.st = .none ∧ (s.prefetch 12 8 (lanesOf s.active)).2 = true)
    ∧ passes (.prf 12 8 1) (let s := paired 2; { s with me := { s.me with tx := { Tx.idle with st := .opened 0 } } }) = true := by
  decide +kernel

/-- An operation of the group that has not completed. -/
def pending (i : Instr) : Op :=
  { id := 0, gs := 0, frag := 0, path := (shape i).path, cap := { Captured.none with instr := i, act := BitVec.allOnes 32 }, region := 1
    todo := [], got := [], nums := [], begun := false, complete := false, holds := [], suspended := none, waits := none, issuedAt := 0 }
def busy (i : Instr) : State := { paired 0 with ops := [pending i], nextOp := 1 }
def sentNow : State := { paired 0 with me := { (paired 0).me with sent := [(0, 0)] } }
theorem test_meets_Fences : (∀ i ∈ [Instr.fence 1 1 1, .fence 0 1 5, .fence 1 0 5, .fence 0 1 2, .xfence 1, .xfence 127, .waitp 4 6], Free i (paired 0))
    ∧ (paired 0).released 0 1 0 = true ∧ (paired 0).released 0 5 0 = true ∧ (paired 0).loadsPending 0 = false ∧ (paired 0).pathsBusy 0 127 = false
    ∧ Free (.fence 1 0 5) sentNow ∧ sentNow.released 0 5 0 = false
    ∧ (∀ i ∈ [Instr.fence 1 1 1, .fence 0 1 1, .waitp 4 0], Free i (busy (.ldB32 1 2 8 0))) ∧ (busy (.ldB32 1 2 8 0)).released 0 1 1 = false
    ∧ (busy (.ldB32 1 2 8 0)).loadsPending 0 = true ∧ Free (.xfence 2) (busy (.skid 20 24 0)) ∧ (busy (.skid 20 24 0)).pathsBusy 0 2 = true
    ∧ Path.all[0]? = some .ls ∧ ((busy (.ldB32 1 2 8 0)).rdS 4).toNat < (busy (.ldB32 1 2 8 0)).pathCount 0 .ls
    ∧ (paired 0).pathCount 0 .tx ≤ ((paired 0).rdS 4).toNat :=
  ⟨free_all (by decide), by decide, by decide, by decide, by decide, free_of (by decide), by decide, free_all (by decide), by decide, by decide,
    free_of (by decide), by decide, by decide, by decide, by decide⟩

/-- Another fragment of the group waits in a FENCE, or in an XFENCE of the Skidder's path. -/
def fenced (m : Nat) : State := { paired 0 with me := { (paired 0).me with fencing := [(1, m, none)] } }
theorem test_meets_Fences_held : (∀ m ∈ [255, 2], (1, m, none) ∈ (fenced m).me.fencing ∧ 1 ≠ (fenced m).fr.id ∧ (fenced m).live = true)
    ∧ isKernel (.nop) = true ∧ Nat.testBit 255 7 = true ∧ (shape (.skid 0 20 1)).path = some .sk ∧ Nat.testBit 2 Path.sk.num = true := by decide

/-- Team barrier 3 in phase 9 with these arrivals and EXPECT 2; s8 is 2 and s9 is 9; the fragment may hold a token. -/
def gate3 (arrived : List Nat) (token : Option Nat) : State :=
  { plain with
    me := { plain.me with sregs := [(8, 2), (9, 9)] }
    fr := { plain.fr with token := token }
    teams := [{ probeTeam with barriers := [(3, { Barrier.zero with expect := 2, phase := 9, arrived := arrived })] }] }
theorem test_meets_TeamBarriers : (∀ i ∈ [Instr.bara 12 3 8, .barw 3 8, .barw 3 9, .bar 3 8, .bara 12 15 8], Free i (gate3 [] none))
    ∧ ((gate3 [] none).myTeam.map fun t => ((t.barrier 3).phase, (t.barrier 3).arrived)) = some (9, [])
    ∧ (gate3 [] none).released 0 1 0 = true ∧ ((gate3 [] none).rdS 8).toNat % 2 ^ 16 = 2 ∧ ((gate3 [] none).rdS 9).toNat % 2 ^ 16 = 9
    ∧ (gate3 [] none).loadsPending 0 = false ∧ (∀ i ∈ [Instr.bara 12 3 8, .bara 12 3 9, .bar 3 8], Free i (gate3 [1] none))
    ∧ ((gate3 [1] none).rdS 8).toNat = 2 ∧ ((gate3 [1] none).rdS 9).toNat ≠ 2 ∧ Free (.bar 3 8) (gate3 [0] (some 9))
    ∧ Free (.bar 3 8) (gate3 [0] (some 8)) :=
  ⟨free_all (by decide), by decide, by decide, by decide, by decide, by decide, free_all (by decide), by decide, by decide,
    free_of (by decide), free_of (by decide)⟩
theorem test_meets_ClusterBarrier : clustered.clusterPlace.isSome = true ∧ Free .cbar clustered ∧ clustered.fr.token = none
    ∧ clustered.released 0 2 0 = true ∧ 0 ∉ clustered.clusterBarrier.arrived ∧ clustered.clusterBarrier.phase = 0
    ∧ Free .cbar { clustered with fr := { clustered.fr with token := some 0 } } ∧ Free .cbar { clustered with fr := { clustered.fr with token := some 65535 } } :=
  ⟨by decide, free_of (by decide), by decide, by decide, by decide, by decide, free_of (by decide), free_of (by decide)⟩

/-- s8 is the offset 0x40, s9 is 1; a watch stands on an SRAM word; a value may be captured. -/
def watcher (watching : Option Nat) (woken : Bool) : State :=
  { plain with
    me := { plain.me with sregs := [(8, 0x40), (9, 1)], watch := some (sramVa, 2 ^ 63) }
    fr := { plain.fr with watching := watching, woken := woken } }
theorem test_meets_CompletionAndWatch : (let s := watcher none false
      (∀ i ∈ [Instr.ldcb 8 9, .cbwait 8 9, .cbwait 8 10, .mwait 9, .mwait 10], Free i s) ∧ s.ops = [] ∧ s.heldBack 0 0 = false ∧ (∀ g ∈ s.groups, g.tx.set = [])
      ∧ (let key := s.teamKey 0x40
         ((s.stamp.abortConflicts s.me.gs true key 8).checkAccesses s.stamp.me
            (s.me.plainChecked true)
            [{ lane := 0, part := 0, va := key - sramBase + sramVa, pa := key, size := 8, data := 2 ^ 32, chk := true }]).1 = none
         ∧ s.rdNat key 8 % 2 ^ 16 ≠ (s.rdS 9).toNat % 2 ^ 16 ∧ s.rdNat key 8 % 2 ^ 16 = (s.rdS 10).toNat % 2 ^ 16)
      ∧ s.loadsPending 0 = false ∧ s.rdNat (2 ^ 63) 4 ≠ (s.rdS 9).toNat ∧ s.rdNat (2 ^ 63) 4 = (s.rdS 10).toNat)
    ∧ Free (.mwait 9) (watcher (some 1) true) ∧ Free (.mwait 9) (watcher (some 1) false)
    ∧ (let s : State := { watcher none false with poison := [poisonUnit (2 ^ 63), poisonUnit ((watcher none false).teamKey 0x40)] }
       ([.cbwait 8 9, .mwait 9].all fun i => passes i s) = true ∧ s.poisoned (s.teamKey 0x40) 8 = true ∧ s.poisoned (2 ^ 63) 4 = true
       ∧ isBlock (2 ^ 63) = false)
    ∧ (let s := watcher none false
       let key := s.teamKey 0x40
       s.poisoned key 8 = false ∧ s.poisoned (2 ^ 63) 4 = false
       ∧ s.laterThan [{ lane := 0, part := 0, va := key - sramBase + sramVa, pa := key, size := 8, data := 2 ^ 32, chk := true }] = false) :=
  ⟨⟨free_all (by decide), by decide, by decide, by decide, by decide, by decide, by decide, by decide⟩, free_of (by decide), free_of (by decide),
    by decide, by decide⟩

/-- A transaction at the word before, open or aborted, with one held store; a second fragment. -/
def within (st : Addr → TxState) : State :=
  { plain with me := { plain.me with tx := { Tx.idle with st := st (plain.fr.pc - 4), stores := [(0x60000, 5)] } } }
/-- The same two words on, where TXA is behind. -/
def later : State := { within .opened with fr := { plain.fr with pc := plain.fr.pc + 4 } }
theorem test_meets_Transactions : Free (.txb 4) plain ∧ (∀ f ∈ plain.me.frags, f.st = .gone)
    ∧ Free (.txb 4) { plain with me := { plain.me with frags := [{ Frag.empty with id := 1 }] } } ∧ FragState.suspended ≠ .gone
    ∧ Free (.txa 16) (within .opened) ∧ Free (.txa 1023) (within .aborted) ∧ Free .txc later ∧ later.ops = [] ∧ later.released 0 3 0 = true
    ∧ (later.me.tx.stores.map (·.1)).Nodup :=
  ⟨free_of (by decide), by decide, free_of (by decide), by decide, free_of (by decide), free_of (by decide), free_of (by decide), by decide,
    by decide, by decide⟩

/-! ### Engine instructions -/

/-- A handle in a quad: BASE in the mapped page, the kind's word, bits 27:0 of the last word, KIND (R223). -/
def quad (n base word low kind : Nat) : List (Nat × Word) :=
  [(n, BitVec.ofNat 32 base), (n + 1, 1), (n + 2, BitVec.ofNat 32 word), (n + 3, BitVec.ofNat 32 (low + kind * 2 ^ 28))]
/-- A word in every lane of a register. -/
def spread (r w : Nat) : List (Nat × Word) := (List.range 32).map fun l => (vkey r 0 l, BitVec.ofNat 32 w)
/-- A landing of 4 records of 64 bytes at 0x9000, batches of 3, record 2 allocated. -/
def dock : Landing :=
  { Landing.ofDescriptor (probeBase + 0xA0000) 0 [] with
    recbase := probeBase + 0x9000, cap := 4, rsize := 64, batch := 3, timeout := 100, stall := 50, free := [0, 1, 3], allocated := [(2, 0)]
    checked := some 0 }
/-- A team of four groups with a tile, in a cluster launch; a handle of each kind; s0 a count of 64 with no barrier; s56 the control word
of a set of one group, s57 of a set of two; vector registers 2 and 3 the address of a ray record, 4 and 5 that of record 2. -/
def shop (exec : Mask) : State :=
  let s := plain
  { s with
    fr := { s.fr with exec := exec }
    me := { s.me with
      sregs := [(0, 64), (1, 0xFFFFFFFF), (12, 32), (13, 64)] ++ quad 16 0x70000 64 0 1 ++ quad 20 0x70000 0x80000 1 2
        ++ quad 24 0xA0000 0 0 3 ++ quad 28 0x71000 0 0 4 ++ quad 32 0x72000 0x100 0 5 ++ quad 36 0x73000 0x80008 0 6
        ++ quad 40 0x74000 0 0 7 ++ quad 44 0x75000 1 0 8
      vregs := spread 2 0x90000 ++ spread 3 1 ++ spread 4 0x9080 ++ spread 5 1
        ++ [(vkey 13 0 0, 0x41000000), (vkey 17 0 0, 0x41000000)] }
    groups := [1, 2, 3].map fun i => { probeGroup with gs := i, gid := i }
    teams := [{ probeTeam with tiles := [0], slots := [0, 1, 2, 3], home := [0, 1, 2, 3], cluster := some (0, [0, 0, 0, 0]), batch := some (probeBase + 0xA0000, [2]) }]
    landings := [dock] }
def engines : List Instr := [.skidg 0 20 6 1, .kmma 8 16 40 1, .kmmaPair 8 16 40 1, .cruz 60 28 2 1, .crget 60 2 1, .cnop 8 6 1, .cnad 60 6 1,
  .cnrd 60 6 1, .cncl 8 6 1, .cnaj 60 40 6 1, .ralc 60 24 2 1, .prim 36 10 1, .tex 60 32 6 1]
theorem test_meets_NoActiveLane : (let s := shop 0xFF
      let s : State := { s with fr := { s.fr with mr := 0x0082 } }
      s.active = 0 ∧ ∀ i ∈ engines ++ [.rcmt 24 4 1, .rget 60 24 1], Free i s) := ⟨by decide, free_all (by decide +kernel)⟩
theorem test_meets_EngineOperations : (∀ i ∈ [Instr.kzero 0 1, .kstat 6 0 1] ++ engines, Free i (shop 3)) ∧ (shop 3).myTeam.isSome = true
    ∧ (shop 3).active ≠ 0 ∧ (∀ l, l < 32 → (shop 3).active.getLsbD l = true →
        ((shop 3).rdV 6 l).toNat % 256 = 0 ∧ (shop 3).offsetBad (shop 3).myGridKey ((shop 3).rdV 6 l).toNat 256 = none
        ∧ ((shop 3).rdV 7 l).toNat % 16 = 0 ∧ (shop 3).offsetBad (shop 3).myGridKey ((shop 3).rdV 7 l).toNat 0 = none)
    ∧ ((shop 3).triangle 10 0).samples 8 8 ≠ [] :=
  ⟨free_all (by decide +kernel), by decide, by decide, by decide, by decide +kernel⟩

/-- A span check that passes. -/
def clean (s : State) (p : Path) (spans : List Span) : Bool :=
  match s.stamp.checkSpans p s.active spans with | .ok _ => true | .error _ => false
theorem test_meets_CheckedOperations : (∀ i ∈ [Instr.skid 0 20 1, .skidg 0 20 6 1, .kmma 8 16 40 1, .kmmaPair 8 16 40 1, .kdrn 48 16 0 1, .tex 60 32 6 1],
      Free i (shop 3))
    ∧ (let s := shop 3
       let hd := s.handle 20
       clean s .sk [⟨0, hd.base, 64, false⟩, ⟨0, hd.dst, 64, true⟩] = true
       ∧ (∀ l, l < 2 → (hd.base + (s.rdV64 6 l).toNat) % 4 = 0 ∧ s.laneFault Need.load ⟨l, hd.base, 64, false⟩ = none)
       ∧ clean s .sk [⟨0, hd.base, 64, false⟩, ⟨0, hd.dst, 64, true⟩, ⟨1, hd.base, 64, false⟩, ⟨1, hd.dst + 64, 64, true⟩] = true) :=
  ⟨free_all (by decide +kernel), by decide +kernel, by decide +kernel, by decide +kernel⟩
theorem test_meets_CheckedOperations_kerf : Numbered (shop 3) ∧ (shop 3).active ≠ 0 ∧ ∀ pair, ∀ tm, (shop 3).myTeam = some tm →
    (let k := (shop 3).stepOf tm pair 8 16 40
     scalePast tm.tbytes 0 (scaleEndA k.fa k.nb) = false ∧ scalePast tm.tbytes 0 (scaleEndB k.fb) = false
     ∧ (shop 3).rowPast (k.spans (shop 3).active) = none ∧ clean (shop 3) .kf (k.spans (shop 3).active) = true) := by
  refine ⟨by unfold Numbered; decide, by decide, ?_⟩
  intro pair tm h
  have e : (shop 3).myTeam = (shop 3).teams.head? := by decide
  rw [e] at h
  simp only [shop, List.head?_cons, Option.some.injEq] at h
  subst h
  revert pair
  decide +kernel
theorem test_meets_CheckedOperations_drain : (let s := shop 3
    let x : Drain := { tile := 0, ctl := 0, alpha := 0, seed := 0, limit := 0, status := 53, res := 0, base := (s.handle 16).base
                       stride := (s.handle 16).word, reg := 0, row := 0 }
    clean s .kf (x.spans s.d s.active) = true)
    ∧ (let s := shop 3
       let t := Texture.of (s.handle 32).base (s.handle 32).word
       let reads := fun (l : Nat) => t.reads (s.rdV 6 l).toNat (s.rdV 7 l).toNat (s.rdV 8 l).toNat
       (∀ l, l < 2 → reads l ≠ [] ∧ ∀ va ∈ reads l, s.laneFault Need.load ⟨l, va, t.texel, false⟩ = none)
       ∧ clean s .tx ((lanesOf s.active).flatMap fun l => (reads l).map fun va => ⟨l, va, t.texel, false⟩) = true) := by
  decide +kernel

theorem test_meets_CruiserInstructions : (∀ i ∈ [Instr.crget 60 2 1, .crld 8 44 1, .cruz 60 28 2 1], Free i (shop 3)) ∧ (shop 3).active ≠ 0
    ∧ Numbered (shop 3) ∧ (shop 3).fr.watching = none
    ∧ (∀ l, l < 32 → (shop 3).active.getLsbD l = true → ((shop 3).rdV64 2 l).toNat % 64 = 0
        ∧ (shop 3).recordFault l ((shop 3).rdV64 2 l).toNat false = none ∧ (shop 3).recordFault l ((shop 3).rdV64 2 l).toNat true = none) := by
  refine ⟨free_all (by decide +kernel), by decide, by unfold Numbered; decide, by decide, by decide +kernel⟩
theorem test_meets_CruiserInstructions_memory : (let s := shop 3
    let at' := s.packetField 0x58 8 + 16 * (s.rdS 8).toNat
    let va := fun (l : Nat) => (s.rdV64 2 l).toNat
    (match s.engineRead s.myGridKey s.me.ctx at' 16 with | .ok e => decide (fieldAt e 8 4 / 2 ^ 31 ≠ 1) | .error _ => false) = true
    ∧ (match s.keys s.myGridKey s.me.ctx Need.store at' 16 with | .ok ks => decide ks.Nodup | .error _ => false) = true
    ∧ (match s.engineRead s.myGridKey s.me.ctx (s.handle 28).base 64 with | .ok _ => true | .error _ => false) = true
    ∧ (∀ xs ∈ [(lanesOf s.active).map fun l => (va l, 192), [(at', 16)], (lanesOf s.active).map (fun l => (va l, 192)) ++ [((s.handle 28).base, 64)]],
        (s.acceptMem s.me.gs (s.reachedKeys xs)).isSome = true)
    ∧ launchLanes (fun l => recStatus (s.recordBytes (va l))) va [] (lanesOf s.active) = [0] ∧ 1 ≤ s.raySlots (coreOf s.me.gs) (s.budgetOf s.me.gs)) := by
  decide +kernel

theorem test_meets_LandingInstructions : (∀ i ∈ [Instr.rcmt 24 4 1, .rget 60 24 1], Free i (shop 1)) ∧ Numbered (shop 1)
    ∧ (shop 1).landing? (shop 1).me.ctx ((shop 1).handle 24).base = some dock ∧ (shop 1).released 0 4 0 = true
    ∧ dock.named [] ((lanesOf (shop 1).active).map fun i => ((shop 1).rdV64 4 i).toNat) = some [2] ∧ dock.pend.length + 1 < dock.batch
    ∧ ((shop 1).myTeam.map (·.batch)) = some (some (((shop 1).handle 24).base, [2])) :=
  ⟨free_all (by decide +kernel), by unfold Numbered; decide, by decide, by decide, by decide, by decide, by decide⟩
/-- The landing not held yet, its descriptor readable in the mapped page, and null addresses; a record that no lane may commit; a team of no batch. -/
def quay : List (Nat × Byte) :=
  [(0xA0001, 0x90), (0xA0004, 1), (0xA0008, 64), (0xA000A, 4), (0xA000C, 3), (0xA0019, 0xB0), (0xA001C, 1)]
theorem test_meets_LandingInstructions_others :
    (let s : State := { shop 1 with landings := [], memory := quay, me := { (shop 1).me with vregs := [] } }
     passes (.rcmt 24 4 1) s = true ∧ s.active ≠ 0 ∧ s.released 0 4 0 = true ∧ (s.rdV64 4 0).toNat = 0 ∧ s.landing? 0 (s.handle 24).base = none
     ∧ (match s.engineRead s.myGridKey s.me.ctx (s.handle 24).base 64 with | .ok d => !descriptorBreaks d | .error _ => false) = true)
    ∧ (let s : State := { shop 1 with me := { (shop 1).me with vregs := spread 4 0x90C0 ++ spread 5 1 } }
       passes (.rcmt 24 4 1) s = true ∧ dock.named [] ((lanesOf s.active).map fun i => (s.rdV64 4 i).toNat) = none)
    ∧ (shop 1).recordsLost ((shop 1).handle 24).base 4 = []
    ∧ (let s : State := { shop 1 with teams := (shop 1).teams.map fun t => { t with batch := none } }
       passes (.rget 60 24 1) s = true ∧ (s.myTeam.map (·.batch)) = some none) := by decide +kernel
/-- The landing not held yet, and a record named that it has not. -/
theorem test_meets_LandingInstructions_first :
    (let s : State := { shop 1 with landings := [], memory := quay }
     passes (.rcmt 24 4 1) s = true ∧ s.released 0 4 0 = true ∧ s.landing? 0 (s.handle 24).base = none ∧ (s.rdV64 4 0).toNat ≠ 0
     ∧ (match s.engineRead s.myGridKey s.me.ctx (s.handle 24).base 64 with | .ok d => !descriptorBreaks d | .error _ => false) = true
     ∧ (s.acceptMem 0 ((s.keys s.myGridKey s.me.ctx Need.load (s.handle 24).base 64).toOption.getD [])).isSome = true) := by decide +kernel
/-- A SORTK of group 1, for the groups 0 and 1, waits. -/
theorem test_meets_Sorting_trap :
    (let o : Op := { pending (.sortk 13 60 4 1) with gs := 1, nums := [64, 0] }
     let s : State := { shop 3 with ops := [o], nextOp := 1 }
     passes (.sortk 12 60 4 1) s = true ∧ o ∈ s.ops ∧ o.gs ∈ ((s.myTeam.map (·.slots)).getD []) ∧ sortsMeet ((s.rdS 12).toNat) (o.nums.headD 0) = true
     ∧ (∀ x ∈ s.ops, x.nums.headD 0 ≠ (s.rdS 12).toNat)) := by decide +kernel
theorem test_meets_Sorting : (∀ i ∈ [Instr.sortk 12 60 4 1, .sortk 13 60 4 1], Free i (shop 3)) ∧ ((shop 3).rdS 12).toNat / 32 % 16 = 1
    ∧ ((shop 3).rdS 13).toNat / 32 % 16 = 2 ∧ (∀ g ∈ [0, 1], (shop 3).sortOf g = none) :=
  ⟨free_all (by decide +kernel), by decide, by decide, by decide⟩
/-- Group 1 waits in the same set of the groups 0 and 1, and group 0 comes. -/
def sorting : State :=
  let c : Captured := { (pending (.sortk 13 60 4 1)).cap with act := 0xFF, vec := (List.range 32).map fun l => (vkey 4 0 l, BitVec.ofNat 32 (40 - l)) }
  { shop 0xF with ops := [{ pending (.sortk 13 60 4 1) with gs := 1, nums := [64, 2], cap := c }], nextOp := 1
                  me := { (shop 0xF).me with sregs := (shop 0xF).me.sregs ++ [(60, 2)] } }
theorem test_meets_Sorting_set : passes (.sortk 13 60 4 1) sorting = true ∧ (sorting.rdS 13).toNat = 64 ∧ (sorting.rdS64 60).toNat = 2
    ∧ (sorting.rdS64 62).toNat = 0 ∧ (∀ o ∈ sorting.ops, o.nums = [64, 2]) ∧ sorting.sortOf 0 = none ∧ (sorting.sortOf 1).isSome = true := by
  decide +kernel

/-! ### Micro-operations -/

/-- A layout of two children, 64-byte nodes with full bounds and 8-byte references, triangles of 36 bytes (R264). -/
def boxes2 : List Byte :=
  setField (setField (setField (setField (setField (setField (List.replicate 64 0) 0x10 8 (probeBase + 0xB0000)) 0x18 8 (probeBase + 0xC0000))
    0x20 2 0x41) 0x22 2 64) 0x26 2 48) 0x28 4 36
/-- A running ray whose one-word program is bound and readable, its record edited. -/
def cruise (edit : Ray → Ray) : State :=
  { State.reset with
    ready := 0xFFF, teams := [probeTeam], grids := [probeGrid], rayLive := true
    tlb := [{ ctx := 0, va := probeBase, size := 2 ^ 32, base := 0, flags := 0xE0 }]
    memory := [(0x20002, 1), (0x20004, 1), (0x20008, 1), (0x2000B, 0x80)]
    ray := edit { Ray.empty with
      record := probeBase + probeRecord, bytes := setStatus (List.replicate 192 0) statusRunning 0, layout := boxes2 } }
def put (off n v : Nat) (r : Ray) : Ray := { r with bytes := setField r.bytes off n v }
def rolls (s : State) : Bool :=
  s.rayLive && s.ray.runs && !s.fetchLate s.ray && s.fetchEnds s.ray == none && s.ray.bytes.length == 192 && !s.ray.past
theorem rayFree_of {s : State} (h : rolls s = true) : RayFree s ∧ s.ray.bytes.length = 192 ∧ s.ray.past = false := by
  simp only [rolls, Bool.and_eq_true, Bool.not_eq_true', beq_iff_eq] at h
  exact ⟨⟨h.1.1.1.1.1, h.1.1.1.1.2, h.1.1.1.2, h.1.1.2⟩, h.1.2, h.2⟩
theorem test_meets_MicroControl : (∀ s ∈ [cruise id, cruise (put 0x27 1 3)], rolls s = true)
    ∧ (∀ i ∈ [Instr.uJmp 2047, .uJz 0 0 0, .uJz 7 2047 0, .uJnz 5 12 7, .uLeaf 3 4, .uSetf 7, .uClrf 0, .uCntr 0 255, .uCntr 1 0, .uCntr 2 0,
        .uFaultx 0], wordOk i = true)
    ∧ wordOk (.uHitc 3) = false ∧ isMicro (.uHitc 3) = true := by decide +kernel
/-- No candidate; a candidate; a hit kept; inside an instance. -/
theorem test_meets_MicroHits : [cruise id, cruise fun r => { r with cand := some [1, 2, 3, 4, 5] }, cruise (put 0x28 4 0x81000000),
      cruise (put 0x28 4 0x21000000)].all rolls = true
    ∧ (cruise id).ray.cand = none ∧ Nat.testBit (fieldAt (cruise id).ray.bytes 0x28 4) 31 = false
    ∧ Nat.testBit (fieldAt (cruise id).ray.bytes 0x28 4) 29 = false ∧ Nat.testBit (fieldAt (cruise id).ray.bytes 0x28 4) 30 = false
    ∧ Nat.testBit (fieldAt (cruise (put 0x28 4 0x81000000)).ray.bytes 0x28 4) 31 = true
    ∧ Nat.testBit (fieldAt (cruise (put 0x28 4 0x21000000)).ray.bytes 0x28 4) 29 = true := by decide +kernel
def comes (x : Except Stepped (State × List Byte)) : Bool := match x with | .ok _ => true | .error _ => false
/-- At an inner node; at a leaf of one triangle, and of none; at an instance; with children, or entries on the stack. -/
theorem test_meets_MicroTraversal :
    (let s := cruise (put 0x30 8 (probeBase + 0xD0000))
     rolls s = true ∧ Nat.testBit (recNode s.ray.bytes) 63 = false ∧ Layout.ok s.ray.layout = true
     ∧ comes (s.rayRead s.ray (recNode s.ray.bytes) (Layout.nsize s.ray.layout)) = true)
    ∧ (let s := cruise (put 0x30 8 (2 ^ 63 + 2 ^ 62))
       let at' : List Byte → State := fun bs =>
         { s with
           memory := s.memory ++ (List.range 64).filterMap fun j => let b := bs.getD j 0; if b = 0 then none else some (0xE0000 + j, b)
           ray := { s.ray with layoutVa := probeBase + 0xE0000 } }
       -- the layout read anew is the same, breaks R264, or has no instances
       (∀ bs ∈ [boxes2, setField boxes2 0x20 2 0xFFFF, setField boxes2 0x18 8 0], rolls (at' bs) = true
         ∧ (match (at' bs).rayRead (at' bs).ray (at' bs).ray.layoutVa 64 with | .ok y => decide (y.2 = bs) | .error _ => false) = true)
       ∧ Layout.ok boxes2 = true ∧ Layout.instbase boxes2 ≠ 0 ∧ Layout.ok (setField boxes2 0x20 2 0xFFFF) = false
       ∧ Layout.ok (setField boxes2 0x18 8 0) = true ∧ Layout.instbase (setField boxes2 0x18 8 0) = 0
       ∧ (match (at' boxes2).rayRead (at' boxes2).ray (at' boxes2).ray.layoutVa 64 with
          | .ok y => (match y.1.rayRead { (at' boxes2).ray with layout := y.2 } (Layout.instbase y.2) 64 with
            | .ok x => decide (fieldAt x.2 0x30 8 = 0) | .error _ => false)
          | .error _ => false) = true
       ∧ Nat.testBit (fieldAt s.ray.bytes 0x28 4) 29 = false)
    ∧ (let s := cruise fun r => { r with kids := [(1, 0, probeBase), (2, 1, 2 ^ 63 + 2 ^ 32)] }
       rolls s = true ∧ (∀ k ∈ s.ray.kids, unpackRef (packRef k.2.2) = k.2.2 ∧ k.2.2 < 2 ^ 64) ∧ recSdepth s.ray.bytes + 2 ≤ 8
       ∧ (match s.rayWrite s.ray [] with | .ok _ => true | .error _ => false) = true ∧ recDepth s.ray.bytes ≤ recStkbase s.ray.bytes)
    ∧ (let s := cruise fun r => { r with bytes := setStack r.bytes [probeBase, probeBase + 64] }
       rolls s = true ∧ recStkbase s.ray.bytes < recDepth s.ray.bytes ∧ recSdepth s.ray.bytes = 2 ∧ s.ray.kids = []) := by decide +kernel
/-- The reads of one triangle come to a state. -/
theorem test_meets_MicroTraversal_reads : ∃ c ps,
    let s := cruise (put 0x30 8 (2 ^ 63 + 2 ^ 32))
    RayReads s.ray 36 ((List.range 1).map fun j => Layout.primbase s.ray.layout + (0 + j) % 2 ^ 32 * Layout.pstride s.ray.layout) s c ps := by
  have h : comes ((cruise (put 0x30 8 (2 ^ 63 + 2 ^ 32))).rayRead (cruise (put 0x30 8 (2 ^ 63 + 2 ^ 32))).ray
      (Layout.primbase (cruise (put 0x30 8 (2 ^ 63 + 2 ^ 32))).ray.layout + (0 + 0) % 2 ^ 32 * Layout.pstride (cruise (put 0x30 8 (2 ^ 63 + 2 ^ 32))).ray.layout) 36) = true := by
    decide +kernel
  unfold comes at h
  split at h
  · rename_i x hx
    exact ⟨x.1, [x.2], .more (.none _) hx⟩
  · cases h

/-! ### Events -/

/-- No group selected; one group resident, with these operations. -/
def still (ops : List Op) : State :=
  { State.reset with
    ready := 0xFFF, groups := [probeGroup], teams := [{ probeTeam with tiles := [0] }], grids := [probeGrid], ops := ops, nextOp := 1
    tlb := [{ ctx := 0, va := probeBase, size := 2 ^ 32, base := 0, flags := 0xE0 }] }
theorem still_meets (ops : List Op) : Idle (still ops) ∧ NoTx (still ops) ∧ ∀ g ∈ (still ops).groups, g.tx.stores = [] := by
  refine ⟨⟨rfl, rfl⟩, ?_, ?_⟩ <;> intro g hg <;> simp only [still, List.mem_singleton] at hg <;> subst hg <;> rfl
def cell (n : Nat) : Access := { lane := 31, part := 0, va := sramVa + 0x40, pa := 2 ^ 63 + 0x40, size := n, data := 5, chk := true }
def access (i : Instr) (c : List Nat) : Op := { pending i with todo := [cell 4], nums := c }
/-- A store, an atomic, a load: each may perform. -/
theorem test_meets_MemoryEvents : ∀ o ∈ [access (.stB32 1 2 8 0) [], access (.atom 1 2 8 0) [2], access (.ldB32 1 2 8 0) [], access (.ldB32 111 2 8 0) []],
    (still [o]).op? 0 = some o ∧ o.path = some .ls ∧ (still [o]).mayPerform o = true ∧ (still [o]).readyAccesses o = [cell 4]
    ∧ ((still [o]).acceptMem o.gs (o.todo.map (·.pa))).isSome = true
    ∧ ((still [o]).checkAccesses (((still [o]).group? o.gs).getD Group.empty) o.checked o.todo).1 = none
    ∧ (∀ j, j < 4 → (still [o]).oldWords (2 ^ 63 + 0x40 + j) = []) ∧ (still [o]).accessFails o (cell 4) = false
    ∧ (still [o]).splits? o (cell 4) = false ∧ (still [o]).hitsL1 o (cell 4) = false
    ∧ (still [o]).poisoned (2 ^ 63 + 0x40) 4 = false ∧ isSram (2 ^ 63 + 0x40) = true := by decide +kernel
/-- A store of 8 bytes into a slot that a Canopy operation works on; a store that hits an L1 line. -/
theorem test_meets_MemoryEvents_store :
    (let o : Op := { access (.stB64 1 2 8 0) [] with todo := [cell 8], id := 1 }
     let c : Op := { access (.cnrd 60 6 1) [0] with todo := [{ cell 256 with pa := 2 ^ 63 }] }
     let s : State := { still [c, o] with nextOp := 2 }
     s.op? 1 = some o ∧ s.mayPerform o = true ∧ s.readyAccesses o = [cell 8] ∧ s.splits? o (cell 8) = true ∧ s.accessFails o (cell 8) = false
     ∧ (s.acceptMem o.gs (o.todo.map (·.pa))).isSome = true ∧ (s.checkAccesses ((s.anyGroup? 0).getD Group.empty) o.checked o.todo).1 = none)
    ∧ (let x : Access := { cell 4 with va := probeBase + 0x40, pa := 0x40, chk := false }
       let o : Op := { access (.stB32 1 2 8 0) [] with todo := [x] }
       let ln : Line := { core := 0, pa := 0x40, bytes := List.replicate 32 0, fill := 0, ctx := 0, va := probeBase + 0x40 }
       let s : State := { still [o] with l1 := [ln] }
       s.op? 0 = some o ∧ s.mayPerform o = true ∧ s.readyAccesses o = [x] ∧ s.splits? o x = false ∧ s.hitsL1 o x = true ∧ s.accessFails o x = false
       ∧ (s.acceptMem 0 [0x40]).isSome = true ∧ (s.checkAccesses ((s.anyGroup? 0).getD Group.empty) o.checked o.todo).1 = none) := by decide +kernel
theorem test_meets_MemoryEvents_rest :
    (let o : Op := { pending (.ldB32 1 2 8 0) with got := [{ lane := 31, part := 0, sector := 9, data := 7 }] }
     (still [o]).op? 0 = some o)
    ∧ (let s : State := { still [] with
         -- PTROOT 0x1000; a table for each level, the last at level 1 with a leaf of 2 MiB at 0
         memory := [(1, 0x10), (0x1000, 1), (0x1001, 0x20), (0x2000, 1), (0x2001, 0x30), (0x3000, 1), (0x3001, 0x40), (0x4000, 0xE3)] }
       (match s.walk 0 0x1234 with | .page base n _ => decide (base = 0 ∧ n = 2097152) | .no _ => false) = true)
    ∧ (let s : State := { still [] with groups := [{ probeGroup with fencing := [(0, 255, some 4096)] }] }
       s.op? 0 = none ∧ (s.groups.flatMap fun g => g.fencing.filterMap (·.2.2)) = [4096]) := by decide +kernel

def stepOp (k : KStep) (i : Instr) : Op := { pending i with nums := k.nums }
/-- A step on tile 0 in its first slot of rows at the mapped page. -/
def kstep : KStep :=
  { tile := 0, p := 1, fa := 0, fb := 0, nb := 0, tr := false, base := probeBase, stride := 256, sa := 0, sb := 0, vb := 40, slot := 0
    fetched := false, promote := false, pair := false, tile2 := 0, base2 := 0, sa2 := 0, buf := false, buf2 := false, fetched2 := false, halted := 0 }
theorem test_meets_KerfEvents_fetch : (let o : Op := { stepOp kstep (.kmma 8 16 40 1) with cap := { (pending (.kmma 8 16 40 1)).cap with act := 1 } }
    let s := still [o]
    (kstep.sides.filter fun y => s.mayFetch (o, y)) = [false] ∧ (match s.draw.readParts (s.placeOf 0).1 (s.placeOf 0).2 (o.nextParts false) with
      | .ok x => (s.acceptFrom (s.budgetOf 0) (o.sideCore false) x.1).isSome | .error _ => false) = true) := by decide +kernel
theorem test_meets_KerfEvents_slot :
    (let o := stepOp { kstep with fa := 3, fb := 3, fetched := true } (.kmma 8 16 40 1)
     let s := still [o]
     s.takesArray o = true ∧ (KStep.of o.nums).slot + 1 < (KStep.of o.nums).slots
     ∧ (s.accept 0 (chargeKerf (s.kerfClassOf 0)) (coreOf 0) (s.kerfLimit (coreOf 0) 0 (s.kerfClassOf 0)) (classClocks (kerfClass (formatOf 0).1))).isSome = true)
    ∧ (let o := stepOp { kstep with fetched := true, promote := true } (.kmma 8 16 40 1)
       isStep o.cap.instr = true ∧ o.complete = false ∧ (KStep.of o.nums).promote = true
       ∧ (KStep.of o.nums).p ≤ (({ still [o] with tiles := [(0, { Tile.zero with c := 1 })] } : State).tile 0).c) := by decide +kernel
theorem test_meets_KerfEvents_tile :
    (let x : Drain := { tile := 0, ctl := 2 ^ 14, alpha := 0, seed := 0, limit := 0, status := 53, res := 0, base := 0, stride := 0, reg := 60, row := 0 }
     let o : Op := { pending (.kdrn 48 0 60 1) with nums := x.nums }
     (still [o]).tileFirst o = true ∧ (still [o]).followerWaits o = false ∧ (Drain.of o.nums).toRegs = true ∧ (Drain.of o.nums).keep = false
     ∧ (Drain.of ({ x with ctl := 2 ^ 14 + 2 ^ 16 } : Drain).nums).keep = true)
    -- a drain to rows of the SRAM space, with a residual
    ∧ (let x : Drain := { tile := 0, ctl := 2 ^ 13, alpha := 0, seed := 0, limit := 0, status := 53, res := sramVa + 0x800, base := sramVa + 0x400
                          stride := 256, reg := 0, row := 0 }
       let o : Op := { pending (.kdrn 48 16 0 1) with nums := x.nums, cap := { (pending (.kdrn 48 16 0 1)).cap with act := 3 } }
       let s := still [o]
       let place := s.placeOf 0
       s.tileFirst o = true ∧ s.followerWaits o = false ∧ x.toRegs = false ∧ x.hasRes = true ∧ x.rows 0 3 = [0, 1] ∧ (s.budget (s.budgetOf 0)).memb = 0
       ∧ (∀ r ∈ [0, 1], (match s.keys place.1 place.2 Need.store (x.base + r * 256) 256, s.engineRead place.1 place.2 (x.res + r * 256) 256,
              s.keys place.1 place.2 Need.load (x.res + r * 256) 256 with
            | .ok a, .ok _, .ok b => decide (a = (List.range 256).map (2 ^ 63 + 0x400 + 256 * r + ·))
                && decide (b = (List.range 256).map (2 ^ 63 + 0x800 + 256 * r + ·))
            | _, _, _ => false) = true))
    ∧ (let o : Op := { pending (.kzero 0 1) with nums := [0] }
       (still [o]).tileFirst o = true ∧ (still [o]).followerWaits o = false ∧ (still [o]).op? 0 = some o)
    ∧ (let o : Op := { pending (.kstat 6 0 1) with nums := [0, 6] }
       (still [o]).tileFirst o = true ∧ ((still [o]).group? 0).isSome = true) := by decide +kernel

theorem test_meets_EngineEvents_copy :
    (let o : Op := { pending (.skid 0 20 1) with nums := [0, 1] ++ [probeBase + 0x70000, probeBase + 0x80000, 64] }
     let s := still [o]
     s.op? 0 = some o ∧ o.path = some .sk ∧ s.copyWaits o = false ∧ copyRecords (o.nums.drop 2) = [(probeBase + 0x70000, probeBase + 0x80000, 64)]
     ∧ 64 ≤ (s.budget (s.budgetOf 0)).piece
     ∧ (match s.engineRead (s.placeOf 0).1 0 (probeBase + 0x70000) 64, s.keys (s.placeOf 0).1 0 Need.load (probeBase + 0x70000) 64,
          s.keys (s.placeOf 0).1 0 Need.store (probeBase + 0x80000) 64 with
        | .ok _, .ok outof, .ok into => decide (into.Nodup ∧ ∀ j, j < 8 → 2 ^ 63 + j ∉ into)
            && ((s.acceptMem 0 (outof ++ into)).bind fun t =>
              t.accept (s.budgetOf 0) chargeSkid (coreOf 0 / 4) (t.budget (s.budgetOf 0)).skb.toNat 64).isSome
        | _, _, _ => false) = true) := by decide +kernel
theorem test_meets_EngineEvents_canopy : ∀ i ∈ [Instr.cnrd 60 6 1, .cnop 8 6 1],
    (let x : Access := { cell 256 with pa := sramBase + 0x100 }
     let o : Op := { pending i with todo := [x], nums := [0] }
     let s := still [o]
     s.op? 0 = some o ∧ o.path = some .cn ∧ s.sramReach (s.placeOf 0).1 (x.pa - sramBase) = .ok x.pa true ∧ x.lane < 32
     ∧ s.poisoned x.pa 256 = false ∧ s.logWaits (s.placeOf 0).1 (s.rdBytes x.pa 256) = none
     ∧ (let o : Op := { pending i with nums := [0] }
        (still [o]).op? 0 = some o ∧ o.todo = [] ∧ o.complete = false)) := by decide +kernel
/-- An open slot at 0x100 with a log area of 4 entries at 0xC00, its record edited; a sample of depth 1, or another, in lane 31. -/
def slotAt (edit : List (Nat × Nat)) : List (Nat × Byte) :=
  let base := [(0x0C, 0x3F800000), (0x10, 0xFF800000), (0x20, 0xC00), (0x24, 4 * 65536), (0x28, 8)]
  let words := edit ++ base.filter fun e => !(edit.any fun x => x.1 == e.1)
  (((List.range 64).flatMap fun w => (leBytes 4 ((words.find? fun e => e.1 == 4 * w).map (·.2) |>.getD 0)).zipIdx.map fun b =>
    (sramBase + 0x100 + 4 * w + b.2, b.1)).filter fun e => e.2 != 0)
def canopy (i : Instr) (edit : List (Nat × Nat)) (depth : Nat) : State :=
  let x : Access := { cell 256 with pa := sramBase + 0x100 }
  let c : Captured := { (pending i).cap with vec := [(vkey 7 0 31, BitVec.ofNat 32 depth), (vkey 8 0 31, 0x3F000000), (vkey 9 0 31, 0x3F800000)] }
  { still [{ pending i with todo := [x], nums := [0], cap := c }] with memory := slotAt edit }
/-- A sample comes to a slot that is retired, is no number with T spent or not, lies in front of what is committed, finds room, or finds none. -/
theorem test_meets_EngineEvents_cnad :
    (let s := fun (edit : List (Nat × Nat)) (depth : Nat) => canopy (.cnad 60 6 1) edit depth
     let b : State → Slot := fun t => t.rdBytes (sramBase + 0x100) 256
     let e : State → Sample := fun t => (t.ops.headD (pending .nop)).sample 6 31
     let meets := fun (t : State) => t.poisoned (sramBase + 0x100) 256 = false ∧ t.logWaits (t.placeOf 0).1 (b t) = none ∧ (b t).word 0x20 = 0xC00
     meets (s [] 0x3F800000) ∧ meets (s [(0x28, 8 + 32)] 0) ∧ (b (s [(0x28, 8 + 32)] 0)).retired = true
     ∧ (b (s [] 0x7FC00000)).retired = false ∧ f32.isNan (e (s [] 0x7FC00000)).depth = true ∧ (b (s [] 0x7FC00000)).spent = false
     ∧ (b (s [(0x0C, 0)] 0x7FC00000)).spent = true
     ∧ lt32 (e (s [(0x10, 0x40000000)] 0x3F800000)).depth ((b (s [(0x10, 0x40000000)] 0x3F800000)).word 0x10) = true
     ∧ lt32 (e (s [] 0x3F800000)).depth ((b (s [] 0x3F800000)).word 0x10) = false ∧ (b (s [] 0x3F800000)).nbuf = 0
     ∧ (b (s [(0x28, 8 + 8 * 128)] 0x3F800000)).nbuf = 8
     ∧ (insertSample (b (s [(0x28, 8 + 8 * 128)] 0x3F800000)).entries (e (s [(0x28, 8 + 8 * 128)] 0x3F800000))).length = 9) := by decide +kernel
/-- CNCL; CNAJ over a log of one entry, whose gradient goes to mapped memory. -/
theorem test_meets_EngineEvents_replay :
    (let s := canopy (.cncl 60 6 1) [] 0
     s.poisoned (sramBase + 0x100) 256 = false ∧ s.logWaits (s.placeOf 0).1 (s.rdBytes (sramBase + 0x100) 256) = none)
    ∧ (let s := canopy (.cnaj 60 40 6 1) [(0x24, 4 * 65536 + 1)] 0
       let r := s.replay (s.placeOf 0).1 0xC00 1 { gc := [0, 0x3F000000, 0x3F800000], gt := 0, out := [], count := 0, skipped := false }
       r.count = 1 ∧ (match s.gradKeys (s.placeOf 0).1 (s.placeOf 0).2 (probeBase + 0x74000) false r.out with
         | .ok gs => decide (gs.map (·.1) = [0x74000]) && (List.range 16).all fun j => !s.stackWaits (0x74000 + j) | .error _ => false) = true
       ∧ (s.offsetBad (s.placeOf 0).1 0xC00 48).isNone = true ∧ s.poisoned (sramKey 0xC00) 48 = false) := by decide +kernel
theorem test_meets_EngineEvents_raster :
    (let o : Op := { pending (.prim 36 10 1) with todo := [{ cell 16 with va := probeBase + 0x73000, pa := 0 }] }
     let s := still [o]
     s.resolve (s.placeOf 0).1 0 none Need.both (probeBase + 0x73000) 16 = .ok 0x73000 false ∧ s.poisoned 0x73000 16 = false
     ∧ (s.acceptMem 0 [0x73000]).isSome = true ∧ nearer 5 0 (s.rdNat 0x73008 4) (s.rdNat 0x73000 8) = false
     ∧ nearer 5 0 6 0 = true)
    ∧ (let o : Op := { pending (.tex 60 32 6 1) with todo := [cell 4], nums := [probeBase, 0x100] }
       let s := still [o]
       s.op? 0 = some o ∧ (o.todo.filter fun x => x.lane == 31) ≠ [] ∧ isSram (2 ^ 63 + 0x40) = true ∧ (s.acceptMem 0 [2 ^ 63 + 0x40]).isSome = true) := by
  decide +kernel

/-- A ray with a status-1 record at the mapped page. -/
def queuedRay : Ray :=
  { Ray.empty with record := probeBase + probeRecord, queued := true, layoutVa := probeBase + 0xE0000
                   bytes := setStatus (List.replicate 192 0) statusRunning 0 }
theorem test_meets_RayEvents :
    (let layout := (List.range 64).filterMap fun j =>
       let b := boxes2.getD j 0
       if b = 0 then none else some (0xE0000 + j, b)
     let s : State := { still [] with rays := [queuedRay], memory := layout }
     (s.rays.find? fun q => q.queued && q.ctx == 0) = some queuedRay ∧ s.dieReady 0 = true ∧ s.raySlots 255 0 ≠ 0 ∧ s.raySlots 0 0 ≠ 0
     ∧ s.recordSaved queuedRay = false ∧ (s.chargeRange { queuedRay with core := 255 } Need.load queuedRay.record 192).isSome = true
     ∧ (match s.engineRead 0 0 queuedRay.record 192, s.engineRead 0 0 queuedRay.layoutVa 64 with
        | .ok bs, .ok x => decide (recSdepth bs ≤ 8) && Layout.ok x | _, _ => false) = true)
    ∧ (let r : Ray := { queuedRay with queued := false, code := some 1 }
       let p : PendingRay := { lane := 31, op := 0, record := r.record, dest := 60 }
       let s : State := { still [] with rays := [r], groups := [{ probeGroup with rays := [p] }] }
       (s.rays.find? fun q => q.id == 0) = some r ∧ (s.group? (recOwner r.bytes)).isSome = true ∧ r.faulted = none ∧ r.only = false ∧ r.mute = false) := by
  decide +kernel
theorem test_meets_LandingEvents :
    (let key := probeBase + 0xA0000
     let o : Op := { pending (.ralc 60 24 2 1) with nums := [key, 31] }
     let s : State := { still [o] with landings := [dock], now := 50 }
     s.op? 0 = some o ∧ s.landing? 0 key = some dock ∧ lowest dock.free = some 0 ∧ dock.waiting = [] ∧ 0 < dock.stall
     ∧ o.issuedAt + dock.stall ≤ s.now)
    ∧ (let c : Commit := { record := 2, time := 0, gs := 0, bound := 1, grid := 0, budget := 0 }
       let l : Landing := { dock with pend := [c] }
       let s : State := { still [] with landings := [l], now := 100 }
       (s.landings.find? fun q => q.key == l.key) = some l ∧ l.due = some 100 ∧ (s.grid? 0).isSome = true ∧ l.checked = some 0)
    ∧ (let tm : Team := { probeTeam with batch := some (dock.key, [2]), ended := true }
       let s : State := { still [] with landings := [dock], teams := [tm] }
       s.team? 0 = some tm ∧ (s.grid? tm.grid).isSome = true ∧ tm.consumerDone = false ∧ s.landing? 0 dock.key = some dock) := by decide +kernel

/-- Queue 63 with EN and 2 entries of ring, its table at 0: TAIL 1. The second form has TAIL 3. -/
def queues (tail : Nat) (rung : Nat) : State :=
  { still [] with
    memory := [(64 * 63 + 1, 0x40), (64 * 63 + 0xC, BitVec.ofNat 8 tail), (64 * 63 + 0x10, 1), (64 * 63 + 0x12, 1)], rung := [(63, rung)] }
theorem test_meets_LaunchEvents_queue :
    (let s := queues 1 2
     s.trip = false ∧ s.queueLate 63 = false ∧ s.queueOn 63 = true ∧ s.queueTail 63 = 1 ∧ s.queueBreaks 63 1 = false
     ∧ s.packetWaits 63 = true ∧ s.recordReach (s.queuePa 63 + 8) 4 = .ok (64 * 63 + 8) false
     ∧ (match s.packetAt 63 with | some p => !s.checkWaits (s.queueCtx 63) p | none => false) = true)
    ∧ (let s := queues 3 0
       s.queueOn 63 = true ∧ s.queueBreaks 63 (s.queueTail 63) = true ∧ s.recordReach (s.queuePa 63 + 0x10) 4 = .ok (64 * 63 + 0x10) false) := by decide +kernel
/-- A grid of two teams of one group, on the device's one die, of which none is placed. -/
def fresh : Grid :=
  { probeGrid with
    queue := 63, dies := [(0, 0, 0)], nextTeam := 0, teams := 2
    packet := setField (setField (setField probeGrid.packet 0x18 4 1) 0x1C 4 1) 0x20 4 32 }
theorem test_meets_LaunchEvents_placement :
    (let s : State := { queues 1 0 with grids := [fresh], teams := [], groups := [] }
     s.grid? 0 = some fresh ∧ s.dispatchable fresh = true ∧ (s.placeFor fresh).isSome = true ∧ s.mayPlace fresh = true
     ∧ fresh.consumerOf = none ∧ Packet.cluster fresh.packet = false)
    ∧ (let g : Grid := { probeGrid with packet := setField probeGrid.packet 0x48 8 (probeBase + 0xF0000) }
       let s : State := { still [] with teams := [{ probeTeam with ended := true }], grids := [g] }
       s.grid? 0 = some g ∧ s.launchOver g = true ∧ s.landings = [] ∧ s.deviceWaits g.key g.ctx (Packet.record g.packet) 16 = false
       ∧ (s.deviceWrite 0 0 (Packet.record g.packet) (completionRecord (s.verdict g).1 (s.verdict g).2 g.kills s.now)).isSome = true)
    ∧ (let s := still []
       s.ops = [] ∧ s.rays = [] ∧ (∀ tm ∈ s.teams, tm.unit = none) ∧ (s.team? 0).isSome = true ∧ (s.grids.all fun g => !g.finished) = true
       ∧ (∀ tm ∈ s.teams, tm.ended = false ∧ tm.saved = false ∧ tm.request = none ∧ s.preqNames (2 ^ 24) tm = true
            ∧ s.preqNames (2 ^ 25 + 2 ^ 24) tm = true)) := by decide +kernel

/-- A group that has stopped whole, its team asked to leave, one save unit free in context 0's pool; the slots and the pool are mapped. -/
def leaving : State :=
  let s := still []
  { s with
    -- CSBASE and SABASE in the mapped page, SAUNIT 1 MiB, NUNITS 1, SAMAP mapped
    memory := [(0xB, 0x80), (0xC, 1), (0x13, 0x90), (0x14, 1), (0x1A, 0x10), (0x1C, 1), (0x23, 0xA0), (0x24, 1)]
    now := 100000
    groups := [{ probeGroup with alloc := 4, fullStop := true, vregs := [(vkey 0 0 0, 7)] }]
    teams := [{ probeTeam with request := some { since := 0, byDispatcher := none } }] }
theorem leaving_goes : (leaving.teams.all fun tm => !leaving.saveWaits 0 0 [(tm, 0)]) = true := by decide +kernel
/-- Its parts, each a theorem of its own: the unit taken, the slots and the unit written. -/
def leaver : Team := { probeTeam with request := some { since := 0, byDispatcher := none } }
def took : Option State := ((leaving.stopTx leaver).mapUnit leaver.grid 0 0 true).map fun a => a.modTeam leaver.serial fun t => { t with unit := some 0 }
def unitTaken : State := took.getD leaving
def isOk {α : Type} (x : Except (Nat × Nat) α) : Bool := match x with | .ok _ => true | .error _ => false
def okOr {α : Type} (d : α) (x : Except (Nat × Nat) α) : α := match x with | .ok y => y | .error _ => d
theorem ok_of {α : Type} {x : Except (Nat × Nat) α} (d : α) (h : isOk x = true) : x = .ok (okOr d x) := by
  cases x with
  | ok _ => rfl
  | error e => cases h
def parkWritten : State := okOr unitTaken (unitTaken.writeAllParked (unitTaken.liveGroups leaver.serial))
def itsSlots : List (Nat × Nat × List Byte) := okOr [] (parkWritten.slotImages 0 leaver)
def slotsWritten : State := okOr parkWritten (parkWritten.writeBlocks leaver.grid 0 itsSlots)
def itsUnit : List (Nat × Nat × List Byte) := parkWritten.unitImage leaver (unitTaken.saveRanges leaver) (parkWritten.saBase 0 + 0 * parkWritten.saUnit 0)
theorem unit_taken : took.isSome = true := by decide +kernel
theorem park_written : isOk (unitTaken.writeAllParked (unitTaken.liveGroups leaver.serial)) = true := by decide +kernel
theorem slots_read : isOk (parkWritten.slotImages 0 leaver) = true := by decide +kernel
theorem slots_written : isOk (parkWritten.writeBlocks leaver.grid 0 itsSlots) = true := by decide +kernel
theorem unit_written : isOk
    (({ parkWritten with memory := slotsWritten.memory, poison := slotsWritten.poison } : State).writeBlocks leaver.grid 0 itsUnit) = true := by
  decide +kernel
theorem leaver_fits : ∃ e, (leaving.stopTx leaver).saveOne 0 0 leaver = .ok e := by
  have hb : unitTaken.writeAllParked (unitTaken.liveGroups leaver.serial) = .ok parkWritten := ok_of unitTaken park_written
  have hs : parkWritten.slotImages 0 leaver = .ok itsSlots := ok_of [] slots_read
  have hw : parkWritten.writeBlocks leaver.grid 0 itsSlots = .ok slotsWritten := ok_of parkWritten slots_written
  have hu := writeBlocks_then hw (ok_of parkWritten unit_written)
  obtain ⟨a, ha⟩ := Option.isSome_iff_exists.mp unit_taken
  have hm : took = some unitTaken := by unfold unitTaken; rw [ha, Option.getD_some]
  exact saveOne_of hm hb hs hw hu
theorem test_meets_TeamEvents_save : (leaving.team? 0).isSome = true ∧ (leaving.grid? 0).isSome = true ∧ leaving.csbase 0 = slots
    ∧ (∀ tm ∈ leaving.teams, tm.cluster = none ∧ tm.ended = false ∧ tm.saved = false ∧ leaving.canSaveTeam tm = true)
    ∧ leaving.lowestUnits 0 0 1 = [0]
    ∧ (leaving.teams.all fun tm => !leaving.saveWaits 0 0 [(tm, 0)]) = true
    ∧ leaving.teams = [leaver] ∧ ∃ e, (leaving.stopTx leaver).saveOne 0 0 leaver = .ok e :=
  ⟨by decide, by decide, by decide, by decide +kernel, by decide +kernel, leaving_goes, rfl, leaver_fits⟩
/-- The same team saved, its image empty. -/
def away : State :=
  { leaving with
    groups := [{ probeGroup with gs := savedSlot 0 0, alloc := 4, saved := true }]
    teams := [{ probeTeam with slots := [savedSlot 0 0], saved := true, unit := some 0 }] }
theorem test_meets_TeamEvents_restore : (away.team? 0).isSome = true ∧ (∀ tm ∈ away.teams, away.roomToRestore tm = true ∧ away.givesWay tm = false ∧ away.badBlock 0 0 tm.image = none
      ∧ tm.unit = some 0
      ∧ ((((away.enterCore tm).keepEnded tm).modTeam 0 fun x => { x with unit := none, saved := false }).mapUnit 0 0 0 false).isSome = true)
    ∧ (∀ tm ∈ away.teams, ((away.enterCore tm).keepEnded tm).deviceWaits 0 0 (away.mapVa 0 0) 1 = false ∧ tm.image = [])
    ∧ away.ops = [] ∧ (∀ x ∈ away.groups, x.rays = [] ∧ x.parked = [])
    ∧ (∀ tm ∈ away.teams, ∀ x ∈ away.groups, tm.parkedSaved (tm.home.getD x.gid 0) = false) := by decide +kernel
theorem test_meets_TeamEvents_groups :
    (let s : State := { leaving with groups := [probeGroup] }
     (s.group? 0) = some probeGroup ∧ ((s.team? 0).bind (·.request)).isSome = true ∧ 0 + 100000 ≤ s.now ∧ probeGroup.ended = false
     ∧ probeGroup.saved = false ∧ probeGroup.stoppedByMaps = false ∧ probeGroup.tx.st = .none)
    ∧ (let g : Group := { probeGroup with savedScopes := some [], scopes := [4] }
       let s : State := { still [] with groups := [g] }
       s.toReinstate 0 = some g)
    ∧ (let g : Group := { probeGroup with alloc := 8, wantsScope := some (0, 4) }
       let s : State := { still [] with groups := [g] }
       s.toReinstate 0 = none ∧ s.toGrant 0 = some g)
    ∧ (let s : State := { still [] with groups := [{ probeGroup with yielded := some 0 }], now := 11, clusters := [(0, Cluster.start 0)] }
       s.clockAt 0 0 + 16 ≤ s.clock 0)
    ∧ (let g : Group := { probeGroup with dogCount := 1 }
       let s : State := { still [] with groups := [g], wdog := 1 }
       s.dogDue g = true ∧ g.frags ≠ [])
    ∧ (let s := still []
       (s.group? 0).isSome = true ∧ s.ops = [] ∧ s.rays = [] ∧ (∀ tm ∈ s.teams, tm.unit = none) ∧ (∀ x ∈ s.groups, x.parked = [])
       ∧ s.ready.toNat % 256 = 255 ∧ s.failed = 0) := by decide +kernel
/-- A core whose register file is full of groups that wait for a scope: the oldest wants 108 registers more. -/
def crowd : State :=
  { still [] with
    memory := leaving.memory
    groups := (List.range 147).map fun i =>
      { probeGroup with gs := i, order := i, alloc := if i = 0 then 4 else 112, scopes := if i = 0 then [] else [4]
                        wantsScope := some (0, if i = 0 then 108 else 4) } }
theorem test_meets_TeamEvents_pressure : (∀ x ∈ crowd.onCore 0, x.waitsScope = true) ∧ (oldest (crowd.onCore 0)).map (·.gs) = some 0
    ∧ (match oldest (crowd.onCore 0) with | some o => o.savedScopes.isNone && decide (crowd.freeBytes 0 < o.scopeNeed) | none => false) = true
    ∧ (youngest ((crowd.onCore 0).filter fun x => x.gs != 0 && x.savedScopes.isNone && !x.scopes.isEmpty && x.handler.isNone)).map (·.gs) = some 146
    ∧ (match crowd.group? 146 with
       | some g =>
         let va := crowd.slotVa g.ctx g.gs + frameOffset + charge g.tangents (g.alloc - g.scopeSum)
         (crowd.deviceWrite 0 g.ctx va (hiddenBytes crowd.tick va g.savedNeed)).isSome && !crowd.deviceWaits 0 g.ctx va g.savedNeed
       | none => false) = true := by decide +kernel

/-- A ring of 64 entries at physical 0x100000; a fault of an operation, one of a parked fragment. -/
def ring : State :=
  let f : FaultRec :=
    { kind := 1, cause := 1, ctx := 0, grid := 0, gs := 0, vaddr := 0x1234, paddr := 0, record := 0, info := 0, time := 0, target := 0, mask := 0
      seq := none }
  { still [] with fqbase := 0x100000, fqEn := true, fqLog := 6, faults := [{ f with seq := some 4 }, f, f], fqprod := 63 }
theorem test_meets_FaultEvents : (∀ o ∈ ring.ops, o.complete = true) ∧ (∀ g ∈ ring.groups, g.rays = []) ∧ ring.ringInUse = true
    ∧ ({ ring with fqcons := 1 } : State).ringRoom = true ∧ (firstUnsent ring.faults).isSome = true
    ∧ ring.physical ring.nextGrid (ring.deviceKey (ring.fqbase.toNat + 64 * (ring.fqprod.toNat % 2 ^ ring.fqLog.toNat))) false = .ok (0x100000 + 64 * 63) false
    ∧ ring.stackWaits (0x100000 + 64 * 63) = false ∧ (ring.faults.find? fun x => x.seq == some 4).map (·.kind) = some 1
    ∧ (let p : Parked :=
         { cap := { Captured.none with act := 3 }, frag := 0, mr := 0, clr := 0, links := [], cause := 1, addr := 0, wr := false, seq := some 5, waits := none
           rest := [], next := 0x100, inHandler := false }
       let g : Group := { probeGroup with parked := [p] }
       let fs := ring.faults.map fun f => { f with kind := 0, mask := 3, seq := some 5 }
       let s : State := { ring with groups := [g], faults := fs }
       (s.faults.find? fun x => x.seq == some 5).map (fun f => (f.kind, f.gs, f.mask)) = some (0, 0, 3) ∧ s.group? 0 = some g ∧ g.parked = [p]
       ∧ p.cap.act = 3 ∧ ∀ f ∈ s.faults, f.seq.isSome = true) := by decide +kernel
theorem test_meets_FaultEvents_parked :
    (let p : Parked :=
       { cap := { Captured.none with act := 3 }, frag := 0, mr := 0, clr := 0, links := [], cause := 1, addr := 0, wr := false, seq := none, waits := none
         rest := [], next := 0x100, inHandler := false }
     let g : Group := { probeGroup with parked := [p] }
     let f : FaultRec :=
       { kind := 0, cause := 1, ctx := 0, grid := 0, gs := 0, vaddr := 0x1234, paddr := 0, record := 0, info := 0, time := 0, target := 0, mask := 3
         seq := none }
     -- CSBASE in the mapped page
     let s : State := { ring with memory := [(0xB, 0x80), (0xC, 1)], fqcons := 1, groups := [g], faults := [f] }
     let key := 0x100000 + 64 * 63
     let u := s.storeBytes key (s.entryBytes f 63)
     s.ringInUse = true ∧ s.ringRoom = true ∧ firstUnsent s.faults = some ([], f, []) ∧ s.physical s.nextGrid (s.deviceKey key) false = .ok key false ∧ u.group? 0 = some g
     ∧ u.parkedWait { g with parked := [{ p with seq := some 63 }] } = false ∧ s.parkedWait { g with parked := [] } = false
     ∧ (u.writeParked { g with parked := [{ p with seq := some 63 }] }).isSome = true
     ∧ (s.writeParked { g with parked := [] }).isSome = true) := by decide +kernel

theorem test_meets_DeviceEvents : Idle State.reset ∧ Idle (still [])
    ∧ (State.reset.ready = 0 ∧ State.reset.failed = 0 ∧ State.reset.belated = [] ∧ ({ State.reset with belated := [63] } : State).belated = [63] ∧ (still []).dieReady 3 = true ∧ (still []).portReady 0 = false
      ∧ ({ still [] with ready := 0x1FFF } : State).portReady 0 = true ∧ (still []).trip = false ∧ (still []).ops = [] ∧ (still []).rays = []
      ∧ (∀ tm ∈ (still []).teams, tm.unit = none) ∧ (still []).scrubbed 0 = true ∧ (still []).scrubbed (2 ^ 63) = true)
    ∧ (let k : Cluster := { Cluster.reset with pending := some (56, 0) }
       let s : State := { still [] with clusters := [(63, k)] }
       (sget Cluster.reset s.clusters 63).pending = some (56, 0) ∧ (56 : Nat) ≠ (sget Cluster.reset s.clusters 63).fcur ∧ 120 % 64 ≤ 56 ∧ 57 ≤ 121 % 64
       -- an entry of the next boundary's time stands already
       ∧ (∀ e ∈ ({ k with trace := [(0, 0, 24)] } : Cluster).trace, (s.now + 39) / 40 * 40 ≤ e.2.1) ∧ ∀ e ∈ k.trace, e.2.1 < (s.now + 39) / 40 * 40) :=
  ⟨⟨rfl, rfl⟩, ⟨rfl, rfl⟩, by decide +kernel, by decide +kernel⟩
theorem test_meets_OutsideAndRegisters :
    (let s := still []
     (∀ k, k < 2 → s.stackWaits (0x100 + k) = false ∧ s.stackFailed (0x100 + k) = false) ∧ 383999999999 + 1 ≤ 384000000000 ∧ s.tlbBusy = false
     ∧ s.icBusy = false ∧ s.tva.toNat % 4 = 0 ∧ s.icva.toNat % 4 = 0 ∧ ({ s with tva := 1 } : State).tva.toNat % 4 = 1
     ∧ ({ s with tva := 2 } : State).tva.toNat % 4 = 2 ∧ s.window = 0 ∧ ({ s with now := 1000 } : State).now / 1000 ≠ 0)
    ∧ (let s : State := { still [] with tlbBusy := true, icBusy := true, tlbRun := ⟨0, probeBase, 0⟩, icRun := ⟨0, probeBase, 0⟩ }
       s.tlbBusy = true ∧ s.icBusy = true ∧ (∀ n ∈ [0, 1, 2], ({ s with tlbRun := ⟨n, 0, 0⟩ } : State).tlbRun.scope = n) ∧ s.ops = [] ∧ ∀ x ∈ s.tlb, x.size % 4096 = 0) := by decide +kernel

/-! ### Words, steps and states -/

theorem test_meets_DecodeEncode : (∀ i ∈ [Instr.sadd 4 5 6, .bra 1 0 16 32, .uJz 3 12 0], fits i = true ∧ (encodingOf i).isSome = true)
    ∧ isMicro (.uJz 3 12 0) = true ∧ isMicro (.sadd 4 5 6) = false := by decide
/-- The word placed for the next step: `sadd 4, 5, 6`; a step runs it, and the fragment goes on. -/
def placed : State := State.reset.withFetchWord 32 0x19081430
theorem test_meets_StepRunsDecoded : placed.turn = some (.issue 0 0)
    ∧ (let u := ({ placed with turn := none } : State).parkRay.take 0 0
       u.live = true ∧ u.ov = none ∧ u.waitsFirst = false ∧ u.fr.code = none ∧ lineOf u.icache 0 u.me.ctx u.fr.pc.toNat = none ∧ lineOf u.l2i 0 u.me.ctx u.fr.pc.toNat = none
       ∧ u.resolve u.myGridKey u.me.ctx none Need.code u.fr.pc.toNat 4 = .ok probeCode false ∧ u.stackWaits probeCode = false
       ∧ u.poisoned (probeCode / 64 * 64) 64 = false ∧ u.fr.pc.toNat % 4 = 0 ∧ probeCode % 64 = u.fr.pc.toNat % 64
       ∧ (decodeWord (u.rdNat probeCode 4)).toOption = some (.sadd 4 5 6)) := by decide +kernel
/-- The fragment is in a line that it has come to before. -/
theorem test_meets_StepRunsDecoded_line : (let s : State := { placed with groups := placed.groups.map fun g =>
        { g with frags := g.frags.map fun f => { f with code := some (f.pc.toNat / 64 * 64, encodeBytes (.sadd 4 5 6) ++ encodeBytes (.sadd 4 5 6)) } } }
    let u := ({ s with turn := none } : State).parkRay.take 0 0
    u.live = true ∧ u.ov = none ∧ u.waitsFirst = false ∧ u.fr.code.isSome = true ∧ (u.fr.code.map (·.1)) = some (u.fr.pc.toNat / 64 * 64)
    ∧ (decodeWord (fieldAt ((u.fr.code.map (·.2)).getD []) (u.fr.pc.toNat % 64) 4)).toOption = some (.sadd 4 5 6)) := by decide +kernel
theorem test_meets_StepRunsDecoded_micro : (let s := State.reset.withFetchWord 32 0x38000000
    let u := ({ s with turn := none } : State).park.selectRay 0
    s.turn = some (.micro 0) ∧ u.rayLive = true ∧ u.program u.ray = some (probeBase + probeCode, 1)
    ∧ u.microword u.ray = some 0x38000000) := by decide +kernel
theorem test_meets_StepRunsDecoded_event : isEvent .evPrcntRead = true ∧ ({ still [] with turn := some (.event .evPrcntRead) } : State).turn ≠ none
    ∧ ({ still [] with turn := some .input, inputs := [.evPrcntRead] } : State).inputs = [.evPrcntRead] ∧ (still []).turn = none := by decide
theorem test_meets_StepKeepsForm : Sound (still []) := ⟨rfl, by unfold Numbered; decide, by unfold WholePages; decide⟩
theorem test_meets_EveryStepAnswers : isKernel (.sadd 4 5 6) = true ∧ plain.live = true ∧ isMicro .uDone = true ∧ (cruise id).rayLive = true := by decide

/-! ## Single steps -/

/-- A reading of the next state. -/
def after {α : Type} (i : Instr) (s : State) (f : State → α) : Option α := match exec i s with | .next t => some (f t) | _ => none
/-- One lane active; vector words of lane 0 by register and plane. -/
def lane0 (d : Fin 9) (mr : Nat) (ws : List (Nat × Nat × Nat)) : State :=
  let s := lab d mr []
  { s with fr := { s.fr with exec := 1 }, me := { s.me with vregs := ws.map fun w => (vkey w.1 w.2.1 0, BitVec.ofNat 32 w.2.2) } }
def word0 (r k : Nat) (t : State) : Nat := (t.me.vword r k 0).toNat

/-- 7 + (2^32 − 1) wraps (R138). -/
theorem test_sadd_wraps : after (.sadd 6 4 5) plain (fun t => (t.me.sregs.find? fun e => e.1 == 6).map (·.2.toNat)) = some (some 6) := by decide
/-- (−1) × 7 has the high word −1 as signed and 6 as unsigned numbers (R138). -/
theorem test_smulh : after (.smulh 6 4 5 0) plain (fun t => (sget 0 t.me.sregs 6).toNat) = some 0xFFFFFFFF
    ∧ after (.smulh 6 4 5 1) plain (fun t => (sget 0 t.me.sregs 6).toNat) = some 6 := by decide
/-- A count of 32 or more empties the word, or fills it with the sign (R138). -/
theorem test_shift_past_width : after (.sshl 6 4 5) plain (fun t => (sget 0 t.me.sregs 6).toNat) = some 0
    ∧ after (.ssar 6 5 5) plain (fun t => (sget 0 t.me.sregs 6).toNat) = some 0xFFFFFFFF := by decide
/-- 7 is below 2^32 − 1 as unsigned, above it as signed; q0 stays 1 (R139, R21). -/
theorem test_scmp : after (.scmp 2 4 5 6) plain (fun t => t.me.q 2) = some true ∧ after (.scmp 2 4 5 2) plain (fun t => t.me.q 2) = some false
    ∧ after (.scmp 0 4 5 2) plain (fun t => t.me.q 0) = some true := by decide
/-- The first lane of those active is lane 3; with none active, 0 (R135). -/
theorem test_ufirst : after (.ufirst 6 1) { torn with fr := { torn.fr with exec := 0xF8 } } (fun t => (sget 0 t.me.sregs 6).toNat) = some 9
    ∧ after (.ufirst 6 1) nobody (fun t => (sget 0 t.me.sregs 6).toNat) = some 0 := by decide
/-- `iadd` with #-3 adds 0xFD to each byte (R145); the product of a byte by itself is clamped under SAT (R54). -/
theorem test_bytes : after (.iaddImm 6 1 0x3FD) (lane0 0 0x0007 [(1, 0, 0x03000180)]) (word0 6 0) = some 0x00FDFE7D
    ∧ after (.imul 6 1 1) (lane0 0 0x0807 [(1, 0, 0x10)]) (word0 6 0) = some 0x7F := by decide
/-- The spec's example: position 4, length 5, signed (R151). -/
theorem test_bfe : after (.bfe 6 1 2) (lane0 0 0x0002 [(1, 0, 0x1F0), (2, 0, 0x8504)]) (word0 6 0) = some 0xFFFFFFFF := by decide
/-- #-1 fills the word; planes are zero (R154). v2 + (v3 << 3) (R155). -/
theorem test_movi_lea : after (.movi 5 1023) (lane0 2 0x2002 [(5, 1, 9)]) (fun t => (word0 5 0 t, word0 5 1 t)) = some (0xFFFFFFFF, 0)
    ∧ after (.lea 4 2 3 3) (lane0 0 2 [(2, 0, 5), (3, 0, 0xE0000001)]) (word0 4 0) = some 13 := by decide
/-- 1.5 + 1.5; 1.5 × 2 with the planes 3 and 0 of the factors 1.5 and 2 gives the plane 6 (R72, R158). -/
theorem test_float : after (.fadd 6 1 1) (lane0 0 0x0002 [(1, 0, 0x3FC00000)]) (word0 6 0) = some 0x40400000
    ∧ after (.fmul 6 1 2) (lane0 1 0x2002 [(1, 0, 0x3FC00000), (1, 1, 0x40400000), (2, 0, 0x40000000)]) (fun t => (word0 6 0 t, word0 6 1 t))
      = some (0x40400000, 0x40C00000) := by decide +kernel
/-- The spec's example: 1.5 with planes (2, −1, 0.5) and steps (0.25, 0.5, −2) gives 0.5 (R169). -/
theorem test_tlin : after (.tlin 12 9 20)
      (let s := lane0 3 0x2002 [(9, 0, 0x3FC00000), (9, 1, 0x40000000), (9, 2, 0xBF800000), (9, 3, 0x3F000000)]
       { s with me := { s.me with sregs := [(20, 0x3E800000), (21, 0x3F000000), (22, 0xC0000000)] } }) (word0 12 0) = some 0x3F000000 := by
  decide +kernel
/-- The spec's example: 2^24, 1, 1 and −2^24 in lanes 0 to 3. REDU `add` gives 1.0, an inclusive SCAN 0 in lane 3 (R176, R178). -/
theorem test_tree_and_scan :
    (let s : State := { plain with
      fr := { plain.fr with exec := 0xF }
      me := { plain.me with vregs := [(vkey 4 0 0, 0x4B800000), (vkey 4 0 1, 0x3F800000), (vkey 4 0 2, 0x3F800000), (vkey 4 0 3, 0xCB800000)] } }
     after (.redu 5 4 0) s (fun t => (t.me.vword 5 0 2).toNat) = some 0x3F800000
     ∧ after (.scan 5 4 112 0) s (fun t => (t.me.vword 5 0 3).toNat) = some 0) := by decide +kernel
/-- 1.0 in the plane named, +0 in the others (R165). -/
theorem test_tseed : after (.tseed 2 2 1) (lane0 2 0x2002 [(2, 0, 7), (2, 1, 8)]) (fun t => (word0 2 0 t, word0 2 1 t, word0 2 2 t))
    = some (7, 0, 0x3F800000) := by decide
/-- The trap's code and cause in s62, the next word's address in s63, the handler's PC (R119, R120). -/
theorem test_trap : after (.trap 5) ready (fun t => ((sget 0 t.me.sregs 62).toNat, (sget 0 t.me.sregs 63).toNat, t.fr.pc.toNat))
    = some (0x50B, probeCode + 4, probeBase + 0x50000) := by decide +kernel
/-- The frame's lanes come back, at the interrupted PC (R122). -/
theorem test_tret : after .tret inside (fun t => (t.fr.exec, t.fr.pc, t.me.handler.isNone)) = some (0xF0, 0x100, true) := by decide +kernel
/-- The lanes of p1 branch, the others go on at the next word, in one record (R106, R107). -/
theorem test_bra_splits : after (.bra 1 0 16 32) fork (fun t => (t.fr.exec, t.fr.pc - fork.fr.pc, t.me.frags.map (·.exec), t.me.joins.map (·.addr)))
    = some (0xFFFF, 64, [0xFFFF0000], [some (fork.fr.pc + 128)]) := by decide
/-- A word of lane 31 stands in memory, least byte first, when the store performs (R182); an atomic ADD gives back the value before (R195). -/
theorem test_store_performs : (let o := access (.stB32 1 2 8 0) []
    ((still [o]).performAccess o (cell 4)).memory) = [(2 ^ 63 + 0x40, 5)] := by decide +kernel
theorem test_atom_performs : (let o := access (.atom 1 2 8 0) [2]
    let t := ({ still [o] with memory := [(2 ^ 63 + 0x40, 7)] } : State).performAccess o (cell 4)
    (t.rdNat (2 ^ 63 + 0x40) 4, t.groups.map fun g => (g.vword 1 0 31).toNat)) = (12, [7]) := by decide +kernel
/-- Two groups release on one word, the second by a later write: an acquire of what it wrote is ordered after both, and an entry of
the first's region is then no conflict (R326, R340). -/
theorem test_counter_of_releases :
    (let r := fun (gs : Nat) => ({ gs := gs, first := 1, bound := 2, scope := 5, edges := [(5, [(gs, 1, 2)])] } : Release)
     let t := ({ still [] with groups := [{ probeGroup with race := { RaceState.fresh 1 with reads := [(1, chainWrite (r 2) [r 1])] } }] }
       : State).acquireAt 0 5
     t.groups.map fun g => (g.race.before.covers 1 1, g.race.before.covers 2 1, g.race.before.covers 1 2, g.race.rg)) =
    [(true, true, false, 2)] := by decide +kernel
/-- A transaction's held byte stands after TXC (R218). -/
theorem test_txc : after .txc later (fun t => t.memory) = some [(0x60000, 5)] := by decide +kernel
/-- No child and an empty stack give the null reference (R274). -/
theorem test_popn_empty : after .uPopn (cruise id) (fun t => recNode t.ray.bytes) = some (2 ^ 63) := by decide +kernel
/-- A step runs the word at the PC. -/
theorem test_step : (match step placed with | .next t => t.fr.pc.toNat | _ => 0) = probeBase + probeCode + 4 := by decide +kernel

end Sys2Proof.Tests
end

section
/-!
SUPPORT. The lanes of a mask, and lookups in lists, where they are found by a test.
-/
namespace Sys2Proof.Machine

theorem lanesOf_sorted (m : Mask) : (lanesOf m).Pairwise (· < ·) := List.pairwise_lt_range.filter _

/-- The lowest lane of a mask for which a test holds is the one that is found. -/
theorem find?_lanesOf {m : Mask} {p : Nat → Bool} {l : Nat} (hl : l < 32) (hm : m.getLsbD l = true) (hp : p l = true)
    (low : ∀ k, k < l → m.getLsbD k = true → p k = false) : (lanesOf m).find? p = some l := by
  obtain ⟨pre, post, e⟩ := List.append_of_mem (mem_lanesOf.2 ⟨hl, hm⟩)
  have sorted := lanesOf_sorted m
  rw [e] at sorted ⊢
  have before : ∀ k ∈ pre, ¬ p k = true := fun k hk => by
    have lt : k < l := (List.pairwise_append.1 sorted).2.2 k hk l (List.mem_cons_self ..)
    have mem : k ∈ lanesOf m := e ▸ List.mem_append_left _ hk
    simp [low k lt (mem_lanesOf.1 mem).2]
  rw [List.find?_append, List.find?_eq_none.2 before, List.find?_cons_of_pos hp]
  rfl

theorem maskOf_lanesOf (m : Mask) : maskOf (lanesOf m) = m := by
  apply BitVec.eq_of_getLsbD_eq
  intro l hl
  rw [getLsbD_maskOf, Bool.eq_iff_iff]
  simp [mem_lanesOf, hl]

theorem mem_lanesOf_without {m bad : Mask} {l : Nat} :
    l ∈ lanesOf (m &&& ~~~bad) ↔ l < 32 ∧ m.getLsbD l = true ∧ bad.getLsbD l = false := by
  rw [mem_lanesOf, BitVec.getLsbD_and, BitVec.getLsbD_not]
  constructor
  · rintro ⟨hl, h⟩; simp_all
  · rintro ⟨hl, h, hb⟩; simp_all

theorem lanesOf_eq_nil {m : Mask} : lanesOf m = [] ↔ m = 0 := by
  constructor
  · intro h; rw [← maskOf_lanesOf m, h]; rfl
  · rintro rfl; rfl

theorem mask_without_none (m : Mask) : m &&& ~~~(0 : Mask) = m := BitVec.and_allOnes

theorem lookup_of_mem {α : Type} {m : List (Nat × α)} {k : Nat} {v : α} (h : (k, v) ∈ m) (u : ∀ w ∈ m, w.1 = k → w.2 = v) :
    lookup m k = some v := by
  unfold lookup
  cases e : m.find? fun p => p.1 == k with
  | none => exact absurd (List.find?_eq_none.1 e _ h) (by simp)
  | some w =>
    have hw : w.1 = k := by simpa using List.find?_some e
    rw [Option.map_some, u w (List.mem_of_find?_eq_some e) hw]

theorem any_congr_mem {α : Type} {l : List α} {p q : α → Bool} (h : ∀ x ∈ l, p x = q x) : l.any p = l.any q := by
  rw [Bool.eq_iff_iff, List.any_eq_true, List.any_eq_true]
  exact exists_congr fun x => and_congr_right fun hx => by rw [h x hx]

end Sys2Proof.Machine
end

section
/-!
SUPPORT. What the bookkeeping of an issue leaves alone: translation, where a memory instruction's pieces fall, what it captures; and
where the fragment stands once it has gone on.
-/
namespace Sys2Proof.Machine

variable (s : State)

theorem stamp_walkFrom (va level : Nat) : ∀ table, s.stamp.walkFrom va level table = s.walkFrom va level table := by
  have e : ∀ l t, s.stamp.walkLevel va l t = s.walkLevel va l t := fun _ _ => rfl
  induction level with
  | zero => intro table; simp only [State.walkFrom, e]
  | succ l ih => intro table; simp only [State.walkFrom, e, ih]

theorem stamp_walk (ctx va : Nat) : s.stamp.walk ctx va = s.walk ctx va := by
  unfold State.walk
  simp only [stamp_walkFrom]
  rfl

theorem stamp_page (ctx va : Nat) (fetch : Bool) : s.stamp.page ctx va fetch = s.page ctx va fetch := by
  unfold State.page State.walkNow
  simp only [stamp_walkFrom, stamp_walk]
  rfl

@[simp] theorem stamp_resolve (grid ctx : Nat) (frame : Option Nat) (need : Need) (va size : Nat) :
    s.stamp.resolve grid ctx frame need va size = s.resolve grid ctx frame need va size := by
  unfold State.resolve
  rw [stamp_page]
  rfl

@[simp] theorem stamp_laneAddr (a k l : Nat) : s.stamp.laneAddr a k l = s.laneAddr a k l := rfl
@[simp] theorem stamp_loadForm (a k n : Nat) : s.stamp.loadForm a k n = s.loadForm a k n := rfl
@[simp] theorem stamp_storeForm (d a k n m : Nat) : s.stamp.storeForm d a k n m = s.storeForm d a k n m := rfl
@[simp] theorem stamp_atomForm (d a k : Nat) : s.stamp.atomForm d a k = s.atomForm d a k := rfl
@[simp] theorem stamp_capture (i : Instr) : s.stamp.capture i = s.capture i := rfl
@[simp] theorem stamp_ops : s.stamp.ops = s.ops := rfl
@[simp] theorem stamp_rdSd (k : Nat) : s.stamp.rdSd k = s.rdSd k := rfl

@[simp] theorem stamp_place (f : MemForm) (l : Nat) (ps : List Piece) : s.stamp.place f l ps = s.place f l ps := by
  induction ps with
  | nil => rfl
  | cons p rest ih => 
    simp only [State.place, ih, stamp_resolve]
    rfl

@[simp] theorem stamp_reached (f : MemForm) : s.stamp.reached f = s.reached f := by simp only [State.reached, stamp_place]
@[simp] theorem stamp_unreached (f : MemForm) : s.stamp.unreached f = s.unreached f := by
  simp only [State.unreached, stamp_place]
@[simp] theorem stamp_formWaits (f : MemForm) : s.stamp.formWaits f = s.formWaits f := by
  simp only [State.formWaits, stamp_unreached]

theorem issue_waits {s : State} {i : Instr} {f : State → Ran} {t : State} (h : Free i s) (e : f s.stamp = .wait t) :
    issue i f s = .next t := by
  simp [issue, h.1, h.2, e]

/-! ## Going on -/

@[simp] theorem advance_me : s.advance.me = s.me := by rw [advance_eq]

@[simp] theorem advance_fr : s.advance.fr = { s.fr with pc := s.nextPc } := by rw [advance_eq]

theorem nextPc_of_stamp {s t : State} (hf : t.fr.pc = s.fr.pc) (ho : t.ov = s.ov) : t.nextPc = s.nextPc := by
  unfold State.nextPc; rw [hf, ho]

/-- Past an issue that leaves the fragment alone, it has gone on. -/
theorem fragKept_advance {s t : State} (hf : t.fr = s.stamp.fr) (ho : t.ov = s.ov) : FragKept s t.advance := by
  have pc : t.nextPc = s.nextPc := nextPc_of_stamp (by rw [hf]; rfl) ho
  unfold FragKept
  rw [advance_fr, pc, hf]
  rfl

/-- The frame of an issue that changes the fragment, and of its group what a frame leaves out. -/
theorem frame_advance {s t : State} (h : t = { s.stamp with me := t.me, fr := t.fr }) (m : t.me.body = s.me.body) :
    Frame id s t.advance := by
  rw [advance_eq, h]
  exact ⟨⟨rfl, stamp_groups s, rfl⟩, m⟩

end Sys2Proof.Machine
end

section
/-!
SUPPORT. The pieces of a memory instruction: those that land in memory, and the first of a lane that does not (R180, R316 to R319).
-/
namespace Sys2Proof.Machine

/-- The virtual address of a piece of a lane. -/
def MemForm.va (f : MemForm) (l : Nat) (p : Piece) : Nat := (f.addr l + p.off) % 2 ^ 64

/-- What an address names for an access of the issuing group. -/
def State.names (s : State) (need : Need) (va n : Nat) : Reach :=
  s.resolve s.myGridKey s.me.ctx (s.me.handler.map (·.frame)) need va n

/-- What the address of a piece of a lane names. -/
def State.reach? (s : State) (f : MemForm) (l : Nat) (p : Piece) : Reach := s.names f.need (f.va l p) p.size

/-- A piece of a lane reaches memory at a key: host memory takes no F32 atomic (R194). -/
def State.Lands (s : State) (f : MemForm) (l : Nat) (p : Piece) (key : Nat) (chk : Bool) : Prop :=
  s.reach? f l p = .ok key chk ∧ ¬(floatAtomic f.nums = true ∧ key / 2 ^ 48 = 1)

/-- The access of a piece of a lane at its key. -/
def MemForm.access (f : MemForm) (l : Nat) (p : Piece) (key : Nat) (chk : Bool) : Access :=
  { lane := l, part := p.part, va := f.va l p, pa := key, size := p.size, data := p.data, chk := chk }

variable {s : State} {f : MemForm} {l : Nat}

/-- A piece that lands goes before the others of its lane. -/
theorem place_cons {p : Piece} {ps : List Piece} {key : Nat} {chk : Bool} (h : s.Lands f l p key chk) :
    s.place f l (p :: ps) =
      match s.place f l ps with | .ok xs => .ok (f.access l p key chk :: xs) | r => r := by
  obtain ⟨hr, hh⟩ := h
  have hr' : s.resolve s.myGridKey s.me.ctx (s.me.handler.map (·.frame)) f.need ((f.addr l + p.off) % 2 ^ 64) p.size = .ok key chk := hr
  have hh' : (floatAtomic f.nums && key / 2 ^ 48 == 1) = false := by simpa using hh
  simp only [State.place, hr', hh', Bool.false_eq_true, if_false]
  rfl

/-- The pieces of a lane that all land are its accesses. -/
theorem place_ok {ps : List Piece} {key : Piece → Nat} {chk : Piece → Bool} (h : ∀ p ∈ ps, s.Lands f l p (key p) (chk p)) :
    s.place f l ps = .ok (ps.map fun p => f.access l p (key p) (chk p)) := by
  induction ps with
  | nil => rfl
  | cons p rest ih =>
    rw [place_cons (h p (List.mem_cons_self ..)), ih fun q hq => h q (List.mem_cons_of_mem _ hq)]
    rfl

/-- The first piece of a lane that does not reach memory stops it. -/
theorem place_fault {pre post : List Piece} {p : Piece} {why : NoAccess} (h : ∀ q ∈ pre, ∃ key chk, s.Lands f l q key chk)
    (e : s.reach? f l p = .no why) : s.place f l (pre ++ p :: post) = .fault why (f.va l p) := by
  induction pre with
  | nil =>
    have e' : s.resolve s.myGridKey s.me.ctx (s.me.handler.map (·.frame)) f.need ((f.addr l + p.off) % 2 ^ 64) p.size = .no why := e
    simp only [List.nil_append, State.place, e']
    rfl
  | cons q rest ih =>
    obtain ⟨key, chk, hq⟩ := h q (List.mem_cons_self ..)
    rw [List.cons_append, place_cons hq, ih fun q hq => h q (List.mem_cons_of_mem _ hq)]

end Sys2Proof.Machine
end

section
/-!
SUPPORT. The lanes of a memory instruction: the accesses of those that reach memory, and the fault that counts where some do not
(R180, R181).
-/
namespace Sys2Proof.Machine

variable {s : State} {f : MemForm} {l : Nat}

/-- The accesses of a lane are those of its pieces, one for each. -/
theorem place_lands {ps : List Piece} (h : ∀ p ∈ ps, ∃ key chk, s.Lands f l p key chk) :
    ∃ xs, s.place f l ps = .ok xs ∧ xs.length = ps.length ∧ ∀ x ∈ xs, x.lane = l := by
  induction ps with
  | nil => exact ⟨[], rfl, rfl, by simp⟩
  | cons p rest ih =>
    obtain ⟨key, chk, hp⟩ := h p (List.mem_cons_self ..)
    obtain ⟨xs, hxs, hlen, hlane⟩ := ih fun q hq => h q (List.mem_cons_of_mem _ hq)
    refine ⟨f.access l p key chk :: xs, ?_, by simp [hlen], ?_⟩
    · rw [place_cons hp, hxs]
    · intro x hx
      rcases List.mem_cons.1 hx with rfl | hx
      · rfl
      · exact hlane x hx

theorem mem_reached {x : Access} : x ∈ s.reached f ↔ ∃ l ∈ f.acting, ∃ xs, s.place f l (f.pieces l) = .ok xs ∧ x ∈ xs := by
  unfold State.reached
  rw [List.mem_flatMap]
  constructor
  · rintro ⟨l, hl, hx⟩
    refine ⟨l, hl, ?_⟩
    split at hx
    · exact ⟨_, ‹_›, hx⟩
    · cases hx
  · rintro ⟨l, hl, xs, e, hx⟩
    exact ⟨l, hl, by rw [e]; exact hx⟩

/-- Where every lane reaches memory, the accesses are all of theirs. -/
theorem reached_ok {xs : Nat → List Access} (h : ∀ l ∈ f.acting, s.place f l (f.pieces l) = .ok (xs l)) :
    s.reached f = f.acting.flatMap xs := by
  unfold State.reached
  rw [List.flatMap_def, List.flatMap_def]
  congr 1
  exact List.map_congr_left fun l hl => by rw [h l hl]

/-- The lanes that fault are those unreached, in lane order. -/
theorem unreached_faults {bad : Nat → Bool} {why : Nat → NoAccess} {va : Nat → Nat}
    (hb : ∀ l ∈ f.acting, bad l = true → s.place f l (f.pieces l) = .fault (why l) (va l))
    (hg : ∀ l ∈ f.acting, bad l = false → ∃ xs, s.place f l (f.pieces l) = .ok xs) :
    s.unreached f = (f.acting.filter bad).map fun l => (l, va l, some (why l), 0) := by
  unfold State.unreached
  generalize f.acting = ls at hb hg ⊢
  induction ls with
  | nil => rfl
  | cons l rest ih =>
    have ih := ih (fun l hl => hb l (List.mem_cons_of_mem _ hl)) fun l hl => hg l (List.mem_cons_of_mem _ hl)
    rw [List.filterMap_cons]
    cases c : bad l with
    | true =>
      rw [hb l (List.mem_cons_self ..) c, List.filter_cons_of_pos c]
      simp only [ih, List.map_cons]
    | false =>
      obtain ⟨xs, e⟩ := hg l (List.mem_cons_self ..) c
      rw [e, List.filter_cons_of_neg (by simp [c])]
      simp only [ih]

theorem unreached_ok (h : ∀ l ∈ f.acting, ∃ xs, s.place f l (f.pieces l) = .ok xs) : s.unreached f = [] := by
  rw [unreached_faults (bad := fun _ => false) (why := fun _ => pageFault) (va := fun _ => 0) (by simp) fun l hl _ => h l hl]
  simp

/-! ## The lowest fault -/

/-- The fault with the lower address of one already found and another; the one found stands where they are equal. -/
def lower (m : Option LaneFault) (b : LaneFault) : Option LaneFault :=
  match m with
  | none => some b
  | some x => if b.2.1 < x.2.1 then some b else some x

theorem lowestFault_eq {bad : List LaneFault} (h : ∀ b ∈ bad, b.2.2.1.isSome = true) : lowestFault bad = bad.foldl lower none := by
  unfold lowestFault
  rw [List.filter_eq_self.2 h]
  simp only [ite_self]
  rfl

theorem foldl_lower_keeps {x : LaneFault} {bs : List LaneFault} (h : ∀ b ∈ bs, x.2.1 ≤ b.2.1) :
    bs.foldl lower (some x) = some x := by
  induction bs with
  | nil => rfl
  | cons b rest ih =>
    have hb : ¬ b.2.1 < x.2.1 := Nat.not_lt.2 (h b (List.mem_cons_self ..))
    rw [List.foldl_cons, show lower (some x) b = some x from if_neg hb]
    exact ih fun b hb => h b (List.mem_cons_of_mem _ hb)

theorem foldl_lower_mem {m : Option LaneFault} {bs : List LaneFault} {y : LaneFault} (h : bs.foldl lower m = some y) :
    m = some y ∨ y ∈ bs := by
  induction bs generalizing m with
  | nil => exact .inl h
  | cons b rest ih =>
    rcases ih h with e | e
    · cases m with
      | none => exact .inr (by simp [lower] at e; simp [e])
      | some x =>
        simp only [lower] at e
        split at e
        · exact .inr (by simp_all)
        · exact .inl e
    · exact .inr (List.mem_cons_of_mem _ e)

/-- Of faults of lanes in order, the lowest address counts, and of equal ones the lowest lane. -/
theorem lowestFault_map {ls : List Nat} {va : Nat → Nat} {why : Nat → NoAccess} {m : Nat} (hs : ls.Pairwise (· < ·)) (hm : m ∈ ls)
    (h : ∀ l ∈ ls, va m < va l ∨ (va m = va l ∧ m ≤ l)) :
    lowestFault (ls.map fun l => (l, va l, some (why l), 0)) = some (m, va m, some (why m), 0) := by
  rw [lowestFault_eq (by simp)]
  obtain ⟨pre, post, rfl⟩ := List.append_of_mem hm
  have before : ∀ l ∈ pre, va m < va l := fun l hl => by
    have lt : l < m := (List.pairwise_append.1 hs).2.2 l hl m (List.mem_cons_self ..)
    rcases h l (List.mem_append_left _ hl) with c | c <;> omega
  have after : ∀ l ∈ post, va m ≤ va l := fun l hl => by
    rcases h l (List.mem_append_right _ (List.mem_cons_of_mem _ hl)) with c | c <;> omega
  rw [List.map_append, List.foldl_append, List.map_cons, List.foldl_cons]
  have step : lower ((pre.map fun l => ((l, va l, some (why l), 0) : LaneFault)).foldl lower none) (m, va m, some (why m), 0)
      = some (m, va m, some (why m), 0) := by
    cases e : (pre.map fun l => ((l, va l, some (why l), 0) : LaneFault)).foldl lower none with
    | none => rfl
    | some y =>
      obtain ⟨l, hl, rfl⟩ : ∃ l ∈ pre, (l, va l, some (why l), 0) = y := by simpa using foldl_lower_mem e
      exact if_pos (before l hl)
  rw [step]
  exact foldl_lower_keeps (by simpa using after)

end Sys2Proof.Machine
end

section
/-!
SUPPORT. What the start of a memory instruction comes to: one operation left behind, or lanes parked (R30, R85, R180, R181, R301).
-/
namespace Sys2Proof.Machine

variable {s : State} {i : Instr} {cap : Captured} {f : MemForm}

/-- The operation that an issue leaves behind (R85, R183). -/
def State.newOp (s : State) (i : Instr) (cap : Captured) (todo : List Access) (nums : List Nat) : Op :=
  { id := s.nextOp, gs := s.me.gs, frag := s.fr.id, path := (shape i).path, cap := cap, region := s.me.race.rg, todo := todo
    got := [], nums := nums, begun := false, complete := false, holds := [], suspended := none, waits := none
    issuedAt := s.now, before := s.me.race.before, leaves := s.now
    rel := if (atomicKind i).isSome && decide (2 ≤ atomOrd (nums.headD 0)) then s.me.releaseAt (atomScope (nums.headD 0))
      else s.me.lastRelease }

/-- The window that an issue opens (R85, R86). -/
def State.newWindow (s : State) (i : Instr) : Window :=
  { op := s.nextOp, la := (shape i).la.getD 0, left := (shape i).la.getD 0, regs := s.writeCodes i }

/-- A memory instruction issued for the lanes `go`: past it, with the operation of its accesses, where there are any. -/
def State.issuedLs (s : State) (i : Instr) (cap : Captured) (f : MemForm) (go : Mask) : State :=
  if (s.reached f).isEmpty then s.advance
  else (s.advance.openOp i { cap with act := go } (s.reached f) f.nums).modMe fun g => g.orderRegion i (f.nums.headD 0)

theorem issuedLs_none {go : Mask} (h : s.reached f = []) :
    s.issuedLs i cap f go = { s with fr := { s.fr with pc := s.nextPc } } := by
  unfold State.issuedLs
  rw [h]
  exact advance_eq s

theorem issuedLs_some {go : Mask} (h : s.reached f ≠ []) :
    s.issuedLs i cap f go =
      { s with
        me := s.me.orderRegion i (f.nums.headD 0)
        fr := { s.fr with pc := s.nextPc, wins := s.fr.wins ++ [s.newWindow i] }
        ops := s.ops ++ [s.newOp i { cap with act := go } (s.reached f) f.nums]
        nextOp := s.nextOp + 1 } := by
  unfold State.issuedLs
  rw [if_neg (by simpa using h), advance_eq]
  rfl

/-- An atomic's order changes the region alone, which the watchdog sees (R335, R443). -/
theorem orderRegion_eq (g : Group) (i : Instr) (c : Nat) :
    g.orderRegion i c =
      { g with race := (g.orderRegion i c).race, dogEnded := (g.orderRegion i c).dogEnded, dogCount := (g.orderRegion i c).dogCount } := by
  unfold Group.orderRegion
  by_cases h : (atomicKind i).isNone = true
  · rw [if_pos h]
  · rw [if_neg h]
    by_cases r : 2 ≤ atomOrd c <;> by_cases a : atomOrd c % 2 = 1 <;> simp only [r, a, if_true, if_false] <;> rfl

theorem orderRegion_plain (g : Group) (c : Nat) (h : atomicKind i = none) : g.orderRegion i c = g := by
  unfold Group.orderRegion; rw [h]; rfl

theorem startLs_ok (h : s.unreached f = []) : s.startLs i cap f = s.issuedLs i cap f f.lanes := by
  unfold State.startLs State.issuedLs
  simp only [h, List.isEmpty_nil, Bool.not_true, Bool.and_false, Bool.false_eq_true, if_false, List.map_nil]
  rw [show maskOf [] = (0 : Mask) from rfl, mask_without_none]
  rfl

/-- The lanes that a fault takes out: all of an access that stands for the whole fragment (R142). -/
def MemForm.lost (f : MemForm) (bad : List LaneFault) : Mask := if f.one && !bad.isEmpty then f.lanes else maskOf (bad.map (·.1))

theorem startLs_fault {l va n : Nat} {why : NoAccess} {bad : Mask} (h : lowestFault (s.unreached f) = some (l, va, some why, n))
    (hb : f.lost (s.unreached f) = bad) :
    s.startLs i cap f = State.keepParked (s.issuedLs i cap f (f.lanes &&& ~~~bad))
      ((s.issuedLs i cap f (f.lanes &&& ~~~bad)).parkLanes cap bad why va f.need.wr 0 none)
      (s.issuedLs i cap f (f.lanes &&& ~~~bad)).me.gs := by
  subst hb
  unfold State.startLs
  simp only [h]
  rfl

/-- A memory instruction whose lanes all reach memory leaves one operation behind. -/
theorem opensAs_of_startLs {erase : Group → Group} {P : State → Prop} (e : exec i s = .next (s.stamp.startLs i cap f).settleArrival)
    (hc : cap.instr = i) (hu : s.unreached f = []) (hr : s.reached f ≠ [])
    (hb : (erase (s.stamp.me.orderRegion i (f.nums.headD 0))).body = (erase s.me).body)
    (hp : P (s.stamp.issuedLs i cap f f.lanes)) : OpensAs i s f.lanes f.nums (s.reached f) erase P := by
  have hr' : s.stamp.reached f ≠ [] := by rwa [stamp_reached]
  have hi := issuedLs_some (i := i) (cap := cap) (go := f.lanes) hr'
  refine ⟨s.stamp.issuedLs i cap f f.lanes, s.stamp.newOp i { cap with act := f.lanes } (s.stamp.reached f) f.nums, ?_, ?_, ?_, ?_, hp, ?_,
    rfl, rfl, rfl, rfl, hc, rfl, rfl, stamp_reached s f, rfl, rfl, rfl, rfl, ?_⟩
  · rw [e, startLs_ok (by rwa [stamp_unreached])]
  all_goals rw [hi]
  · rfl
  · rfl
  · exact hb
  · exact stamp_groups s
  · exact List.getLast?_concat ..

/-! ## Parking -/

theorem signalOnce_eq (s : State) (v : Nat) (last : Option Nat) :
    s.signalOnce v last = { s with msix := (s.signalOnce v last).msix } := by
  unfold State.signalOnce
  split <;> rfl

theorem countFailed_eq (s : State) (why : NoAccess) :
    s.countFailed why = { s with
      uecnt := (s.countFailed why).uecnt, ueaddr := (s.countFailed why).ueaddr, uesrc := (s.countFailed why).uesrc
      ueSignalled := (s.countFailed why).ueSignalled, msix := (s.countFailed why).msix } := by
  unfold State.countFailed
  split
  · unfold State.reportError
    rw [signalOnce_eq]
  · rfl

/-- While the ring is in use a fault joins its order, and what it failed on is reported (R452, R467). -/
theorem postFault_ring {x : FaultRec} (h : s.ringInUse = true) :
    s.postFault x = { s with
      faults := s.faults ++ [x], uecnt := (s.postFault x).uecnt, ueaddr := (s.postFault x).ueaddr, uesrc := (s.postFault x).uesrc
      ueSignalled := (s.postFault x).ueSignalled, msix := (s.postFault x).msix } := by
  unfold State.postFault
  by_cases c : x.cause = 3
  · have ring : (s.countFailed ⟨3, true, x.paddr⟩).ringInUse = true := by rw [countFailed_eq]; exact h
    simp only [c, if_true, ring]
    rw [countFailed_eq]
  · simp only [c, if_false, h, if_true]

theorem rejoin_parked (g : Group) (x : Frag) : (g.rejoin x).parked = g.parked := by
  unfold Group.rejoin; split <;> rfl

theorem anyGroup?_me (h : s.live = true) : s.anyGroup? s.me.gs = some (s.me.rejoin s.fr) := by
  simp [State.anyGroup?, h]

/-- Whether a slot is brought up to date depends, of the state before, on the group's parked fragments alone. -/
theorem keepParked_congr {old old' t : State} (h : old.live = true) (h' : old'.live = true) (g : old.me.gs = old'.me.gs)
    (p : old.me.parked = old'.me.parked) : State.keepParked old t old.me.gs = State.keepParked old' t old'.me.gs := by
  have e := anyGroup?_me h
  have e' := anyGroup?_me h'
  rw [← g] at e' ⊢
  unfold State.keepParked
  simp only [e, e', rejoin_parked, p]

/-- The record of lanes that park (R301, R449). -/
def State.parkedAs (s : State) (cap : Captured) (mask : Mask) (why : NoAccess) (va : Nat) (wr : Bool) : Parked :=
  { cap := { cap with act := mask }, frag := s.fr.id, mr := s.fr.mr, clr := s.fr.clr, links := s.fr.links, cause := why.cause
    addr := (({ cap with act := mask } : Captured).lowestAddress).getD va, wr := wr, seq := none, waits := none
    rest := s.fr.inject, next := s.fr.pc, inHandler := s.me.handler.isSome }

/-- The state in which lanes of the issuing fragment have parked, before their fault is posted. -/
def State.parkedState (s : State) (cap : Captured) (mask : Mask) (why : NoAccess) (va : Nat) (wr : Bool) : State :=
  { s with
    me := { s.me with
      parked := s.me.parked ++ [s.parkedAs cap mask why va wr]
      handler := s.me.handler.map fun (h : Handler) => { h with heldLanes := h.heldLanes &&& ~~~mask } }
    fr := if s.fr.exec &&& ~~~mask = 0 then { s.fr with exec := 0, clr := 0, st := .gone }
      else { s.fr with exec := s.fr.exec &&& ~~~mask } }

theorem parkedState_exec (s : State) (cap : Captured) (mask : Mask) (why : NoAccess) (va : Nat) (wr : Bool) :
    (s.parkedState cap mask why va wr).fr.exec = s.fr.exec &&& ~~~mask := by
  simp only [State.parkedState]
  split
  · exact Eq.symm ‹_›
  · rfl

/-- Lanes that park for a fault that system software can service: the fault is posted (R30, R301, R452). -/
theorem parkLanes_eq {mask : Mask} {why : NoAccess} {va path : Nat} {wr : Bool} (hs : why.service = true) :
    s.parkLanes cap mask why va wr path none = (s.parkedState cap mask why va wr).postFault
      ((s.parkedState cap mask why va wr).faultRec 0 s.me.gs why va 0 mask wr path) := by
  unfold State.parkLanes
  simp only [hs, if_true, Option.isSome_none, Bool.false_eq_true, if_false]
  rfl

/-- A state past a memory instruction: the fragment has gone on, with these windows, the group's regions may have ended, and these
operations are new. -/
def State.pastLs (s : State) (race : RaceState) (dog : Bool × Nat) (wins : List Window) (os : List Op) (n : Nat) : State :=
  { s with
    me := { s.me with race := race, dogEnded := dog.1, dogCount := dog.2 }, fr := { s.fr with pc := s.nextPc, wins := wins }
    ops := s.ops ++ os, nextOp := n }

theorem issuedLs_past (s : State) (i : Instr) (cap : Captured) (f : MemForm) (go : Mask) :
    ∃ race dog wins os n, s.issuedLs i cap f go = s.pastLs race dog wins os n ∧ (os = [] ↔ s.reached f = [])
      ∧ ∀ o ∈ os, o = s.newOp i { cap with act := go } (s.reached f) f.nums := by
  by_cases h : s.reached f = []
  · refine ⟨s.me.race, (s.me.dogEnded, s.me.dogCount), s.fr.wins, [], s.nextOp, ?_, by simp [h], by simp⟩
    rw [issuedLs_none h]
    simp [State.pastLs]
  · let g := s.me.orderRegion i (f.nums.headD 0)
    refine ⟨g.race, (g.dogEnded, g.dogCount), s.fr.wins ++ [s.newWindow i],
      [s.newOp i { cap with act := go } (s.reached f) f.nums], s.nextOp + 1, ?_, by simp [h], fun o ho => List.mem_singleton.1 ho⟩
    rw [issuedLs_some h, orderRegion_eq]
    rfl

/-- Lanes of a memory instruction park at its issue, and the others leave an operation behind. -/
theorem parks_of_startLs {l va n : Nat} {why : NoAccess} {bad : Mask} (live : s.live = true) (ring : s.ringInUse = true)
    (e : exec i s = .next (s.stamp.startLs i cap f).settleArrival) (hc : cap.instr = i)
    (hl : lowestFault (s.unreached f) = some (l, va, some why, n)) (hs : why.service = true) (hb : f.lost (s.unreached f) = bad)
    (hr : s.reached f = [] ↔ f.lanes &&& ~~~bad = 0) (hx : ∀ x ∈ s.reached f, (f.lanes &&& ~~~bad).getLsbD x.lane = true) :
    Parks i s f.lanes bad why.cause va f.need.wr := by
  obtain ⟨race, dog, wins, os, n, ew, hn, hos⟩ := issuedLs_past s.stamp i cap f (f.lanes &&& ~~~bad)
  rw [stamp_reached] at hn hos
  have start := startLs_fault (s := s.stamp) (i := i) (cap := cap) (by rwa [stamp_unreached]) ((stamp_unreached s f).symm ▸ hb)
  have wlive : (s.stamp.pastLs race dog wins os n).live = true := live
  have wring : (s.stamp.pastLs race dog wins os n).ringInUse = true := ring
  generalize hw : s.stamp.pastLs race dog wins os n = w at ew wlive wring
  have wkeep : ∀ t, State.keepParked w t w.me.gs = State.keepParked s t s.me.gs := fun t => by
    subst hw
    exact keepParked_congr wlive live rfl rfl
  rw [ew, wkeep, parkLanes_eq hs, postFault_ring (s := w.parkedState cap bad why va f.need.wr) wring] at start
  rw [start] at e
  subst hw
  refine ⟨_, (s.stamp.pastLs race dog wins os n).parkedAs cap bad why va f.need.wr,
    ((s.stamp.pastLs race dog wins os n).parkedState cap bad why va f.need.wr).faultRec 0 s.me.gs why va 0 bad f.need.wr 0, os, e,
    parkedState_exec (s.stamp.pastLs race dog wins os n) cap bad why va f.need.wr, rfl, hc, rfl, rfl, rfl, rfl, rfl, rfl, rfl, rfl, rfl,
    rfl, rfl, rfl, rfl, rfl, rfl, rfl, ?_, hn.trans hr, fun o ho => ?_, ?_⟩
  · simp only [State.parkedState, State.pastLs, stamp_ops]
  · rw [hos o ho]
    exact ⟨rfl, hc, rfl, hx⟩
  · simp only [State.parkedState, State.pastLs, stamp_memory, stamp_vregs, stamp_sregs, stamp_preds, stamp_tflags, true_and]

end Sys2Proof.Machine
end

section
/-!
SUPPORT. A memory instruction from its issue to its accesses, by whether its lanes are aligned and reach memory (R180, R181, R469).
-/
namespace Sys2Proof.Machine

variable {s : State} {i : Instr} {cap : Captured} {f : MemForm} {form : State → MemForm}

/-! ## From the word to its accesses -/

/-- The fragment goes on, and nothing else happens. -/
theorem completes_of_advance (h : Free i s) (e : exec i s = .next s.stamp.advance.settleArrival) : Completes i s id fun _ => True :=
  nothing_completes (g := fun t => t) h (e.trans (issue_free (f := fun t => .done t.advance) h rfl).symm) rfl

/-- A lane's misaligned address traps, the first such lane's with its address (R180). -/
theorem memory_misaligned {l : Nat} (h : Free i s) (hf : form s.stamp = f)
    (hl : f.acting.find? (fun l => f.addr l % f.align != 0) = some l) :
    memory i form s = .next (s.trapAt i { cause := 8, sub := 0, addr := f.addr l, race := [], lanes := f.lanes }) := by
  unfold memory issue
  simp only [h.1, h.2, Bool.not_true, Bool.false_eq_true, if_false, hf, hl]
  rfl

/-- Without an active lane nothing happens. -/
theorem memory_empty (h : Free i s) (hf : form s.stamp = f) (ho : f.one = false) (hl : f.lanes = 0) :
    memory i form s = .next s.stamp.advance.settleArrival := by
  refine issue_free h ?_
  have hn : f.acting = [] := by rw [MemForm.acting, ho, hl]; rfl
  simp [hf, hn, ho, hl]

/-- Aligned accesses outside a transaction, of which none waits for a stack, start. -/
theorem memory_starts (h : Free i s) (hf : form s.stamp = f) (ha : ∀ l ∈ f.acting, f.addr l % f.align = 0)
    (hl : f.one = true ∨ f.lanes ≠ 0) (hw : s.formWaits f = false) (ht : ∀ x, s.me.tx.st ≠ .opened x) :
    memory i form s = .next (s.stamp.startLs i (s.capture i) f).settleArrival := by
  refine issue_free h ?_
  have hn : f.acting.find? (fun l => f.addr l % f.align != 0) = none := by simpa using ha
  have hl' : (!f.one && f.lanes == 0) = false := by
    rcases hl with c | c
    · rw [c]; rfl
    · rw [beq_false_of_ne c, Bool.and_false]
  have hw' : s.stamp.formWaits f = false := by rwa [stamp_formWaits]
  simp only [hf, hn, hl', hw', Bool.false_eq_true, if_false]
  split
  · exact absurd ‹_› (ht _)
  · rfl

/-! ## Every lane reaches memory -/

section Reaching
variable {key : Nat → Piece → Nat} {chk : Nat → Piece → Bool}
  (lands : ∀ l ∈ f.acting, ∀ p ∈ f.pieces l, s.Lands f l p (key l p) (chk l p))
include lands

theorem unreached_of_lands : s.unreached f = [] := unreached_ok fun l hl => ⟨_, place_ok (lands l hl)⟩

theorem formWaits_of_lands : s.formWaits f = false := by
  unfold State.formWaits
  rw [unreached_of_lands lands]
  rfl

/-- The accesses are those of every piece of every lane. -/
theorem reached_of_lands :
    s.reached f = f.acting.flatMap fun l => (f.pieces l).map fun p => f.access l p (key l p) (chk l p) :=
  reached_ok fun l hl => place_ok (lands l hl)

theorem reached_ne_nil (hn : ∃ l ∈ f.acting, f.pieces l ≠ []) : s.reached f ≠ [] := by
  obtain ⟨l, hl, hne⟩ := hn
  rw [reached_of_lands lands]
  intro c
  exact hne (List.map_eq_nil_iff.1 (List.flatMap_eq_nil_iff.1 c l hl))

/-- A memory instruction whose lanes all reach memory leaves one operation behind with these accesses. -/
theorem opensAs_of_lands {erase : Group → Group} {P : State → Prop} (e : exec i s = .next (s.stamp.startLs i cap f).settleArrival)
    (hc : cap.instr = i) (hn : ∃ l ∈ f.acting, f.pieces l ≠ [])
    (hb : (erase (s.stamp.me.orderRegion i (f.nums.headD 0))).body = (erase s.me).body)
    (hp : P (s.stamp.issuedLs i cap f f.lanes)) :
    OpensAs i s f.lanes f.nums (f.acting.flatMap fun l => (f.pieces l).map fun p => f.access l p (key l p) (chk l p)) erase P := by
  rw [← reached_of_lands lands]
  exact opensAs_of_startLs e hc (unreached_of_lands lands) (reached_ne_nil lands hn) hb hp

end Reaching

/-! ## Some lanes do not -/

/-- No lane waits for a stack where every fault has a cause (R469). -/
theorem formWaits_of_causes (h : ∀ b ∈ s.unreached f, ∃ why, b.2.2.1 = some why ∧ why.cause ≠ 0) : s.formWaits f = false := by
  unfold State.formWaits
  rw [List.any_eq_false]
  intro b hb
  obtain ⟨why, e, hc⟩ := h b hb
  simp [e, hc]

section Faulting
variable {bad : Mask} {why : Nat → NoAccess} {va : Nat → Nat} (one : f.one = false) (some_piece : ∀ l, f.pieces l ≠ [])
  (faults : ∀ l, l < 32 → bad.getLsbD l = true →
    f.lanes.getLsbD l = true ∧ s.place f l (f.pieces l) = .fault (why l) (va l) ∧ (why l).cause ≠ 0)
  (others : ∀ l, l < 32 → f.lanes.getLsbD l = true → bad.getLsbD l = false → ∀ p ∈ f.pieces l, ∃ key chk, s.Lands f l p key chk)
include one faults others

theorem unreached_of_faults : s.unreached f = (lanesOf bad).map fun l => (l, va l, some (why l), 0) := by
  have acting : f.acting = lanesOf f.lanes := by rw [MemForm.acting, one]; rfl
  have hb : ∀ l ∈ f.acting, bad.getLsbD l = true → s.place f l (f.pieces l) = .fault (why l) (va l) := fun l hl c =>
    (faults l (mem_lanesOf.1 (acting ▸ hl)).1 c).2.1
  have hg : ∀ l ∈ f.acting, bad.getLsbD l = false → ∃ xs, s.place f l (f.pieces l) = .ok xs := fun l hl c => by
    obtain ⟨hl32, hlane⟩ := mem_lanesOf.1 (acting ▸ hl)
    obtain ⟨xs, e, -⟩ := place_lands (others l hl32 hlane c)
    exact ⟨xs, e⟩
  rw [unreached_faults hb hg, acting]
  congr 1
  unfold lanesOf
  rw [List.filter_filter]
  refine List.filter_congr fun l hl => ?_
  have hl32 := List.mem_range.1 hl
  cases c : bad.getLsbD l with
  | false => rfl
  | true => simp [(faults l hl32 c).1]

theorem formWaits_of_faults : s.formWaits f = false := by
  refine formWaits_of_causes fun b hb => ?_
  rw [unreached_of_faults one faults others] at hb
  obtain ⟨l, hl, rfl⟩ := List.mem_map.1 hb
  obtain ⟨hl32, hbad⟩ := mem_lanesOf.1 hl
  exact ⟨why l, rfl, (faults l hl32 hbad).2.2⟩

/-- An access belongs to a lane that has not faulted. -/
theorem lane_of_reached {x : Access} (hx : x ∈ s.reached f) : x.lane ∈ lanesOf (f.lanes &&& ~~~bad) := by
  obtain ⟨l, hl, xs, e, hx⟩ := mem_reached.1 hx
  rw [MemForm.acting, one] at hl
  obtain ⟨hl32, hlane⟩ := mem_lanesOf.1 hl
  cases c : bad.getLsbD l with
  | true =>
    rw [(faults l hl32 c).2.1] at e
    cases e
  | false =>
    obtain ⟨ys, e', -, hlanes⟩ := place_lands (others l hl32 hlane c)
    obtain rfl : xs = ys := by rw [e] at e'; exact Landed.ok.inj e'
    rw [hlanes x hx]
    exact mem_lanesOf_without.2 ⟨hl32, hlane, c⟩

include some_piece in
theorem reached_eq_nil : s.reached f = [] ↔ f.lanes &&& ~~~bad = 0 := by
  rw [← lanesOf_eq_nil]
  constructor
  · intro h
    refine List.eq_nil_iff_forall_not_mem.2 fun l hl => ?_
    obtain ⟨hl32, hlane, hgood⟩ := mem_lanesOf_without.1 hl
    obtain ⟨xs, e, hlen, -⟩ := place_lands (others l hl32 hlane hgood)
    have : xs ≠ [] := by
      rintro rfl
      exact some_piece l (List.eq_nil_of_length_eq_zero hlen.symm)
    obtain ⟨x, hx⟩ := List.exists_mem_of_ne_nil xs this
    have : x ∈ s.reached f := mem_reached.2 ⟨l, by rw [MemForm.acting, one]; exact mem_lanesOf.2 ⟨hl32, hlane⟩, xs, e, hx⟩
    rw [h] at this
    cases this
  · intro h
    refine List.eq_nil_iff_forall_not_mem.2 fun x hx => ?_
    have := lane_of_reached one faults others hx
    rw [h] at this
    cases this

include some_piece in
/-- Lanes of a vector access that fault park with the lowest address, and the others leave an operation behind (R30, R180, R181). -/
theorem parks_of_faults {m : Nat} (h : Free i s) (ring : s.ringInUse = true)
    (e : exec i s = .next (s.stamp.startLs i cap f).settleArrival) (hc : cap.instr = i) (hm : m < 32) (hbad : bad.getLsbD m = true)
    (hs : (why m).service = true)
    (low : ∀ l, l < 32 → bad.getLsbD l = true → va m < va l ∨ (va m = va l ∧ m ≤ l)) :
    Parks i s f.lanes bad (why m).cause (va m) f.need.wr := by
  have hu := unreached_of_faults one faults others
  have lowest : lowestFault (s.unreached f) = some (m, va m, some (why m), 0) := by
    rw [hu]
    exact lowestFault_map (lanesOf_sorted bad) (mem_lanesOf.2 ⟨hm, hbad⟩) fun l hl => low l (mem_lanesOf.1 hl).1 (mem_lanesOf.1 hl).2
  have lost : f.lost (s.unreached f) = bad := by
    simp [MemForm.lost, one, hu, Function.comp_def, maskOf_lanesOf]
  exact parks_of_startLs h.1 ring e hc lowest hs lost (reached_eq_nil one some_piece faults others) fun x hx =>
    (mem_lanesOf.1 (lane_of_reached one faults others hx)).2

end Faulting
end Sys2Proof.Machine
end

section
/-!
SUPPORT. TFLAGS past the issue of a store or an atomic: the captured registers, and the operation that is to set TD (R33, R73).
-/
namespace Sys2Proof.Machine

variable {s : State} {i : Instr} {cap : Captured} {f : MemForm}

/-! ## TFLAGS of an issued store (R33, R73) -/

theorem imaged_lt {r : Nat} (h : r ∈ s.imaged i) : r < 112 := by
  unfold State.imaged at h
  split at h
  · cases h
  · cases h
  · exact List.mem_range.1 (List.mem_filter.1 h).1

/-- A captured register holds the words that the instruction read. -/
theorem lookup_capture {r k l : Nat} (h : r ∈ s.imaged i) (hk : k ≤ s.d) (hl : l < 32) :
    lookup (s.capture i).vec (vkey r k l) = some (s.rdVP r k l) := by
  have hd := d_lt s
  have mem : ∀ {q : Nat} {v : Word}, (q, v) ∈ (s.capture i).vec ↔
      ∃ r ∈ s.imaged i, ∃ l, l < 32 ∧ ∃ k, k < s.d + 1 ∧ vkey r k l = q ∧ s.rdVP r k l = v := by
    intro q v
    simp only [State.capture, List.mem_flatMap, List.mem_map, List.mem_range, Prod.mk.injEq]
  refine lookup_of_mem (mem.2 ⟨r, h, l, hl, k, by omega, rfl, rfl⟩) fun w hw e => ?_
  obtain ⟨r', -, l', hl', k', hk', hkey, hval⟩ := mem.1 hw
  obtain ⟨rfl, rfl, rfl⟩ := (vkey_inj (by omega) (by omega) hl' hl).1 (hkey.trans e)
  exact hval.symm

theorem hasTangent_capture {r l : Nat} (h : r ∈ s.imaged i) (hl : l < 32) :
    (s.capture i).hasTangent s.d r l = s.hasTangent r l := by
  unfold Captured.hasTangent State.hasTangent
  refine any_congr_mem fun k hk => ?_
  have := List.mem_range.1 hk
  rw [lookup_capture h (by omega) hl]
  rfl

/-- An operation of the group is to set TD in a lane (R33, R73, R180). -/
def Op.marks (o : Op) (g : Group) (lane : Nat) : Bool :=
  o.gs == g.gs && writesMemory o.cap.instr && !o.cap.noFlags.getLsbD lane && (o.todo.any fun x => x.lane == lane)
    && (valueRegs o.cap.instr (o.nums.headD 0)).any fun r => o.cap.hasTangent g.tangents r lane

theorem flagsOf_eq (s : State) (g : Group) (lane : Nat) :
    s.flagsOf g lane = g.flags lane ||| if s.ops.any (·.marks g lane) then flagTD else 0 := rfl

theorem flags_or_later (x t : BitVec 3) (a b : Bool) :
    (x ||| if a || b then t else 0) = if b then (x ||| if a then t else 0) ||| t else x ||| if a then t else 0 := by
  cases a <;> cases b <;> simp [BitVec.or_assoc]

/-- TFLAGS past the issue of a store or an atomic: TD comes in where its operation is to set it. -/
theorem flagsOf_issuedLs {lane : Nat} (hr : s.reached f ≠ []) (go : Mask) :
    (s.stamp.issuedLs i cap f go).flagsOf (s.stamp.issuedLs i cap f go).me lane =
      if (s.newOp i { cap with act := go } (s.reached f) f.nums).marks s.me lane then s.flagsOf s.me lane ||| flagTD
      else s.flagsOf s.me lane := by
  rw [issuedLs_some (by rwa [stamp_reached]), orderRegion_eq, flagsOf_eq, flagsOf_eq, List.any_append, List.any_cons, List.any_nil,
    Bool.or_false, stamp_reached]
  exact flags_or_later ..

/-- The values of a store or an atomic: the words of `m` registers from `d` on, each captured at issue. -/
def State.Stores (s : State) (i : Instr) (c d m : Nat) : Prop :=
  writesMemory i = true ∧ valueFields i c = (List.range m).map (d + ·) ∧ ∀ j, j < m → d + j < 112 → d + j ∈ s.imaged i

/-- A store's operation is to set TD in its lanes whose stored registers carry a tangent, but for those whose flags an SPRW has given. -/
theorem marks_newOp {d m lane : Nat} {todo : List Access} {nums : List Nat} {go : Mask} (h : s.Stores i (nums.headD 0) d m) (hl : lane < 32) :
    (s.newOp i { s.capture i with act := go } todo nums).marks s.me lane =
      ((todo.any fun x => x.lane == lane) && !((s.ov.map Captured.noFlags).getD 0).getLsbD lane
        && (List.range m).any fun j => decide (d + j < 112) && s.hasTangent (d + j) lane) := by
  obtain ⟨hw, hv, hi⟩ := h
  have values : ((valueRegs i (nums.headD 0)).any fun r => (s.capture i).hasTangent s.d r lane) =
      (List.range m).any fun j => decide (d + j < 112) && s.hasTangent (d + j) lane := by
    unfold valueRegs
    rw [hv, List.any_filter, List.any_map]
    refine any_congr_mem fun j hj => ?_
    by_cases c : d + j < 112
    · simp only [Function.comp_apply, c, decide_true, Bool.true_and]
      exact hasTangent_capture (hi j (List.mem_range.1 hj) c) hl
    · simp only [Function.comp_apply, c, decide_false, Bool.false_and]
  rw [← values]
  show (s.me.gs == s.me.gs && writesMemory i && !((s.ov.map Captured.noFlags).getD 0).getLsbD lane && (todo.any fun x => x.lane == lane)
    && (valueRegs i (nums.headD 0)).any fun r => (s.capture i).hasTangent s.d r lane) = _
  rw [beq_self_eq_true, hw, Bool.true_and, Bool.true_and, Bool.and_comm (!_)]

end Sys2Proof.Machine
end

section
/-!
SUPPORT. Vector memory instructions: each active lane accesses its pieces from its own address (R89, R180); and the words that a store
or an atomic takes from its registers (R185, R187, R195).
-/
namespace Sys2Proof.Machine

/-! ## Vector accesses -/

/-- A vector memory access: each active lane accesses its pieces from its own address (R89, R180). -/
structure MemForm.Vector (f : MemForm) (s : State) (a k n : Nat) : Prop where
  lanes : f.lanes = s.active
  one : f.one = false
  addr : f.addr = s.laneAddr a k
  align : f.align = n
  piece : ∀ l, f.pieces l ≠ []

section Vector
variable {s : State} {i : Instr} {f : MemForm} {form : State → MemForm} {a k n : Nat} (vec : f.Vector s a k n) (hf : form s.stamp = f)
  (e : exec i s = memory i form s)
include vec

theorem MemForm.Vector.acting_eq : f.acting = lanesOf s.active := by
  rw [MemForm.acting, vec.one, vec.lanes]; rfl

theorem MemForm.Vector.aligned {p : Nat → Prop} (h : ∀ l, l < 32 → s.active.getLsbD l = true → s.laneAddr a k l % n = 0 ∧ p l) :
    ∀ l ∈ f.acting, f.addr l % f.align = 0 := fun l hl => by
  rw [vec.acting_eq, mem_lanesOf] at hl
  rw [vec.addr, vec.align]
  exact (h l hl.1 hl.2).1

theorem MemForm.Vector.landed {p : Nat → Prop} {key : Nat → Piece → Nat} {chk : Nat → Piece → Bool}
    (h : ∀ l, l < 32 → s.active.getLsbD l = true → p l ∧ ∀ p ∈ f.pieces l, s.Lands f l p (key l p) (chk l p)) :
    ∀ l ∈ f.acting, ∀ p ∈ f.pieces l, s.Lands f l p (key l p) (chk l p) := fun l hl => by
  rw [vec.acting_eq, mem_lanesOf] at hl
  exact (h l hl.1 hl.2).2

/-- Where every lane reaches memory, the lanes that access it are the active ones. -/
theorem MemForm.Vector.reaches_lane {p : Nat → Prop} {key : Nat → Piece → Nat} {chk : Nat → Piece → Bool}
    (h : ∀ l, l < 32 → s.active.getLsbD l = true → p l ∧ ∀ p ∈ f.pieces l, s.Lands f l p (key l p) (chk l p))
    (l : Nat) (hl : l < 32) :
    ((s.reached f).any fun x => x.lane == l) = s.active.getLsbD l := by
  rw [reached_of_lands (vec.landed h), vec.acting_eq, Bool.eq_iff_iff, List.any_eq_true]
  simp only [List.mem_flatMap, List.mem_map, mem_lanesOf, beq_iff_eq]
  constructor
  · rintro ⟨x, ⟨m, ⟨-, hm⟩, p, -, rfl⟩, rfl⟩
    exact hm
  · intro ha
    obtain ⟨p, hp⟩ := List.exists_mem_of_ne_nil _ (vec.piece l)
    exact ⟨_, ⟨l, ⟨hl, ha⟩, p, hp, rfl⟩, rfl⟩

include hf e

theorem vector_empty (h : Free i s) (ha : s.active = 0) : Completes i s id fun _ => True :=
  completes_of_advance h (e.trans (memory_empty h hf vec.one (vec.lanes.trans ha)))

theorem vector_misaligned {l : Nat} (h : Free i s) (hl : l < 32) (ha : s.active.getLsbD l = true) (hn : s.laneAddr a k l % n ≠ 0)
    (low : ∀ m, m < l → s.active.getLsbD m = true → s.laneAddr a k m % n = 0) :
    exec i s = .next (s.trapAt i { cause := 8, sub := 0, addr := s.laneAddr a k l, race := [], lanes := s.active }) := by
  have found : f.acting.find? (fun l => f.addr l % f.align != 0) = some l := by
    rw [vec.acting_eq, vec.addr, vec.align]
    exact find?_lanesOf hl ha (by simpa using hn) fun m hm hma => by simpa using low m hm hma
  rw [e, memory_misaligned h hf found, vec.addr, vec.lanes]

theorem vector_opens {erase : Group → Group} {P : State → Prop} {key : Nat → Piece → Nat} {chk : Nat → Piece → Bool}
    (h : Free i s)
    (ht : ∀ x, s.me.tx.st ≠ .opened x) (ha : s.active ≠ 0)
    (lands : ∀ l, l < 32 → s.active.getLsbD l = true →
      s.laneAddr a k l % n = 0 ∧ ∀ p ∈ f.pieces l, s.Lands f l p (key l p) (chk l p))
    (hb : (erase (s.stamp.me.orderRegion i (f.nums.headD 0))).body = (erase s.me).body)
    (hp : s.reached f ≠ [] → (∀ l, l < 32 → ((s.reached f).any fun x => x.lane == l) = s.active.getLsbD l) →
      P (s.stamp.issuedLs i (s.capture i) f s.active)) :
    OpensAs i s s.active f.nums
      ((lanesOf s.active).flatMap fun l => (f.pieces l).map fun p => f.access l p (key l p) (chk l p)) erase P := by
  have hlands := vec.landed lands
  obtain ⟨l, hl⟩ := List.exists_mem_of_ne_nil (lanesOf s.active) fun c => ha (lanesOf_eq_nil.1 c)
  have acts : ∃ l ∈ f.acting, f.pieces l ≠ [] := ⟨l, vec.acting_eq ▸ hl, vec.piece l⟩
  have start := memory_starts h hf (vec.aligned lands) (.inr (vec.lanes ▸ ha)) (formWaits_of_lands hlands) ht
  have done := opensAs_of_lands hlands (e.trans start) rfl acts hb
    (vec.lanes ▸ hp (reached_ne_nil hlands acts) (vec.reaches_lane lands))
  rwa [vec.acting_eq, vec.lanes] at done

theorem vector_parks {bad : Mask} {why : Nat → NoAccess} {va : Nat → Nat} {m : Nat} (h : Free i s)
    (ht : ∀ x, s.me.tx.st ≠ .opened x) (ring : s.ringInUse = true) (hm : m < 32) (hbad : bad.getLsbD m = true)
    (hs : (why m).service = true) (low : ∀ l, l < 32 → bad.getLsbD l = true → va m < va l ∨ (va m = va l ∧ m ≤ l))
    (faults : ∀ l, l < 32 → bad.getLsbD l = true →
      s.active.getLsbD l = true ∧ s.place f l (f.pieces l) = .fault (why l) (va l) ∧ (why l).cause ≠ 0)
    (others : ∀ l, l < 32 → s.active.getLsbD l = true →
      s.laneAddr a k l % n = 0 ∧ (bad.getLsbD l = false → ∀ p ∈ f.pieces l, ∃ key chk, s.Lands f l p key chk)) :
    Parks i s s.active bad (why m).cause (va m) f.need.wr := by
  have some_lane : f.lanes ≠ 0 := by
    intro c
    have := (faults m hm hbad).1
    rw [← vec.lanes, c] at this
    simp at this
  rw [← vec.lanes] at faults ⊢
  have hothers : ∀ l, l < 32 → f.lanes.getLsbD l = true → bad.getLsbD l = false →
      ∀ p ∈ f.pieces l, ∃ key chk, s.Lands f l p key chk :=
    fun l hl ha => (others l hl (vec.lanes ▸ ha)).2
  have start := memory_starts h hf (vec.aligned others) (.inr some_lane) (formWaits_of_faults vec.one faults hothers) ht
  exact parks_of_faults vec.one vec.piece faults hothers h ring (e.trans start) rfl hm hbad hs low

end Vector

/-! ## Loads, stores and atomics of one piece a lane -/

/-- A vector access of one piece of n bytes a lane. -/
def State.vectorForm (s : State) (a k n : Nat) (need : Need) (nums : List Nat) (data : Nat → Nat) : MemForm :=
  { lanes := s.active, one := false, addr := s.laneAddr a k, align := n, pieces := fun l => [⟨0, 0, n, data l⟩], need := need
    nums := nums }

theorem vectorForm_vector (s : State) (a k n : Nat) (need : Need) (nums : List Nat) (data : Nat → Nat) :
    (s.vectorForm a k n need nums data).Vector s a k n := ⟨rfl, rfl, rfl, rfl, fun _ => List.cons_ne_nil _ _⟩

theorem laneAddr_lt (s : State) (a k l : Nat) : s.laneAddr a k l < 2 ^ 64 := BitVec.isLt _

section
variable (s : State) (d a k la c : Nat)

theorem regBytes_zero (l : Nat) : s.regBytes d 0 l = 0 := rfl

theorem regBytes_succ (n l : Nat) : s.regBytes d (n + 1) l = s.regBytes d n l + (s.srcV (d + n) l).toNat * 2 ^ (32 * n) := by
  rw [State.regBytes, List.range_succ, List.foldl_append]
  rfl

theorem regBytes_lt (n l : Nat) : s.regBytes d n l < 2 ^ (32 * n) := by
  induction n with
  | zero => exact Nat.one_pos
  | succ n ih =>
    rw [regBytes_succ, Nat.mul_succ, Nat.pow_add]
    have word : (s.srcV (d + n) l).toNat + 1 ≤ 2 ^ 32 := (s.srcV (d + n) l).isLt
    calc s.regBytes d n l + (s.srcV (d + n) l).toNat * 2 ^ (32 * n)
        < 2 ^ (32 * n) + (s.srcV (d + n) l).toNat * 2 ^ (32 * n) := Nat.add_lt_add_right ih _
      _ = ((s.srcV (d + n) l).toNat + 1) * 2 ^ (32 * n) :=
        (Nat.add_comm ..).trans (Nat.succ_mul ..).symm
      _ ≤ 2 ^ 32 * 2 ^ (32 * n) := Nat.mul_le_mul_right _ word
      _ = 2 ^ (32 * n) * 2 ^ 32 := Nat.mul_comm ..

theorem regBytes_one (l : Nat) : s.regBytes d 1 l = (s.srcV (d + 0) l).toNat := by
  rw [regBytes_succ, regBytes_zero, Nat.mul_zero, Nat.pow_zero, Nat.mul_one, Nat.zero_add]

theorem regBytes_two (l : Nat) : s.regBytes d 2 l = (s.srcV (d + 0) l).toNat + (s.srcV (d + 1) l).toNat * 2 ^ 32 := by
  rw [regBytes_succ, regBytes_one]

theorem regBytes_four (l : Nat) : s.regBytes d 4 l = (s.srcV (d + 0) l).toNat + (s.srcV (d + 1) l).toNat * 2 ^ 32
    + (s.srcV (d + 2) l).toNat * 2 ^ 64 + (s.srcV (d + 3) l).toNat * 2 ^ 96 := by
  rw [regBytes_succ, regBytes_succ, regBytes_two]

theorem mem_imaged {i : Instr} {r : Nat} (hi : s.imaged i =
    (List.range 112).filter fun r => (expand ((shape i).vs ++ (shape i).vo) ++ (s.impliedRegs i).1).contains r) :
    r ∈ s.imaged i ↔ r < 112 ∧ (r ∈ expand ((shape i).vs ++ (shape i).vo) ∨ r ∈ (s.impliedRegs i).1) := by
  rw [hi]; simp

theorem mem_expand {gs : List (Nat × Nat)} {r m j : Nat} (h : (r, m) ∈ gs) (hj : j < m) : r + j ∈ expand gs :=
  List.mem_flatMap.2 ⟨(r, m), h, List.mem_map.2 ⟨j, List.mem_range.2 hj, rfl⟩⟩

/-- A store whose word names the registers of its values as sources. -/
theorem stores_of_shape {i : Instr} {m : Nat} (hi : s.imaged i =
    (List.range 112).filter fun r => (expand ((shape i).vs ++ (shape i).vo) ++ (s.impliedRegs i).1).contains r)
    (hw : writesMemory i = true) (hv : valueFields i c = (List.range m).map (d + ·)) (hs : (d, m) ∈ (shape i).vs ++ (shape i).vo) :
    s.Stores i c d m :=
  ⟨hw, hv, fun _ hj h => (mem_imaged s hi).2 ⟨h, .inl (mem_expand hs hj)⟩⟩

/-- The registers of an atomic's operands: two of 64 bits, two operands for CAS (R195). -/
def atomRegs (c : Nat) : Nat := (if atomType c = 3 then 2 else 1) * (if atomOp c = 1 then 2 else 1)

theorem stores_atom : s.Stores (.atom d a k la) (s.rdS (k + 2)).toNat d (atomRegs (s.rdS (k + 2)).toNat) :=
  ⟨rfl, rfl, fun j hj h => (mem_imaged s rfl).2 ⟨h, .inr (List.mem_map.2 ⟨j, List.mem_range.2 hj, rfl⟩)⟩⟩
theorem stores_red : s.Stores (.red d a k la) (s.rdS (k + 2)).toNat d (atomRegs (s.rdS (k + 2)).toNat) :=
  ⟨rfl, rfl, fun j hj h => (mem_imaged s rfl).2 ⟨h, .inr (by
    simp only [State.impliedRegs]
    rw [if_pos (by omega)]
    exact List.mem_map.2 ⟨j, List.mem_range.2 hj, rfl⟩)⟩⟩

end
end Sys2Proof.Machine
end

section
/-!
Loads, stores and atomics of one piece a lane at issue (R180 to R187, R193 to R197).
-/
namespace Sys2Proof.Machine

section
variable {s : State} {a k n : Nat} {need : Need} {nums : List Nat} {data : Nat → Nat}

theorem vectorForm_va (l : Nat) (p : Piece) (h : p ∈ (s.vectorForm a k n need nums data).pieces l) :
    (s.vectorForm a k n need nums data).va l p = s.laneAddr a k l := by
  obtain rfl : p = ⟨0, 0, n, data l⟩ := List.mem_singleton.1 h
  exact Nat.mod_eq_of_lt (laneAddr_lt s a k l)

/-- A lane of one piece lands where its address is resolved to a key that the access may have. -/
theorem vectorForm_lands {l key : Nat} {chk : Bool}
    (h : s.names need (s.laneAddr a k l) n = .ok key chk ∧ ¬(floatAtomic nums = true ∧ key / 2 ^ 48 = 1)) :
    ∀ p ∈ (s.vectorForm a k n need nums data).pieces l, s.Lands (s.vectorForm a k n need nums data) l p key chk := fun p hp => by
  have va := vectorForm_va l p hp
  obtain rfl : p = ⟨0, 0, n, data l⟩ := List.mem_singleton.1 hp
  refine ⟨?_, h.2⟩
  rw [State.reach?, va]
  exact h.1

theorem vectorForm_fault {l : Nat} {why : NoAccess} (h : s.names need (s.laneAddr a k l) n = .no why) :
    s.place (s.vectorForm a k n need nums data) l ((s.vectorForm a k n need nums data).pieces l) = .fault why (s.laneAddr a k l) := by
  have mem : ⟨0, 0, n, data l⟩ ∈ (s.vectorForm a k n need nums data).pieces l := List.mem_singleton.2 rfl
  have va := vectorForm_va l _ mem
  have e : s.reach? (s.vectorForm a k n need nums data) l ⟨0, 0, n, data l⟩ = .no why := by
    rw [State.reach?, va]
    exact h
  rw [← va]
  exact place_fault (pre := []) (post := []) (by simp) e

/-- The accesses of lanes of one piece. -/
theorem vectorForm_accesses (ls : List Nat) (key : Nat → Nat) (chk : Nat → Bool) :
    (ls.flatMap fun l => ((s.vectorForm a k n need nums data).pieces l).map fun p =>
      (s.vectorForm a k n need nums data).access l p (key l) (chk l)) =
    ls.map fun l =>
      { lane := l, part := 0, va := s.laneAddr a k l, pa := key l, size := n, data := data l, chk := chk l } := by
  rw [List.map_eq_flatMap]
  congr 1
  funext l
  have va := vectorForm_va (s := s) (a := a) (k := k) (n := n) (need := need) (nums := nums) (data := data) l _ (List.mem_singleton.2 rfl)
  show [MemForm.access _ l _ (key l) (chk l)] = _
  rw [MemForm.access, va]
end

/-- TFLAGS past a store or an atomic all of whose lanes reach memory. -/
theorem flagsOf_store {s : State} {i : Instr} {f : MemForm} {d m l : Nat} (st : s.Stores i (f.nums.headD 0) d m) (hr : s.reached f ≠ [])
    (ha : ((s.reached f).any fun x => x.lane == l) = s.active.getLsbD l) (hl : l < 32) (go : Mask) :
    (s.stamp.issuedLs i (s.capture i) f go).flagsOf (s.stamp.issuedLs i (s.capture i) f go).me l =
      if s.active.getLsbD l && !((s.ov.map Captured.noFlags).getD 0).getLsbD l
          && (List.range m).any fun j => decide (d + j < 112) && s.hasTangent (d + j) l
      then s.flagsOf s.me l ||| flagTD else s.flagsOf s.me l := by
  rw [flagsOf_issuedLs hr, marks_newOp st hl, ha]

/-- An atomic's acquire ends a region, and leaves the release as it stands (R335). -/
theorem acquire_race (g : Group) (n : Nat) :
    (if n % 2 = 1 then g.endRegion else g).race = { g.race with rg := g.race.rg + n % 2 } := by
  rcases Nat.mod_two_eq_zero_or_one n with h | h
  · rw [h]; rfl
  · rw [h]; rfl

/-- An atomic's order ends a region for its release and one for its acquire, and a release leaves its bound and scope (R335, R336). -/
theorem orderRegion_race {i : Instr} (g : Group) {c : Nat} (h : (atomicKind i).isSome = true) (hc : atomOrd c < 4) :
    (g.orderRegion i c).race.rg = g.race.rg + atomOrd c / 2 + atomOrd c % 2
    ∧ (atomOrd c / 2 = 1 → (g.orderRegion i c).race.release = g.race.rg + 1 ∧ (g.orderRegion i c).race.releaseScope = atomScope c)
    ∧ (atomOrd c / 2 = 0 → (g.orderRegion i c).race.release = g.race.release) := by
  have plain : ¬ (atomicKind i).isNone = true := by cases e : atomicKind i <;> simp_all
  unfold Group.orderRegion
  rw [if_neg plain]
  by_cases r : 2 ≤ atomOrd c
  · have released : atomOrd c / 2 = 1 := by omega
    simp only [r, if_true, acquire_race, released]
    exact ⟨rfl, fun _ => ⟨rfl, rfl⟩, fun e => absurd e (by decide)⟩
  · have unreleased : atomOrd c / 2 = 0 := by omega
    simp only [r, if_false, acquire_race, unreleased]
    exact ⟨rfl, fun e => absurd e (by decide), fun _ => trivial⟩

/-- Settles O30: every load, store and atomic is a vector access of one piece a lane, which starts, traps or parks by where its lanes'
addresses fall; a store's or an atomic's flags are those of the operation that it leaves. -/
theorem vectorMemory : Obligations.VectorMemory := by
  intro s d a k la at' runs loads tangent flags stores word c order atomics
  have run : ∀ {i : Instr} {n : Nat} {need : Need} {nums : List Nat} {data : Nat → Nat} {erase : Group → Group} {P : State → Prop}
      {form : State → MemForm}, exec i s = memory i form s → form s.stamp = s.vectorForm a k n need nums data →
      (erase (s.stamp.me.orderRegion i (nums.headD 0))).body = (erase s.me).body →
      (s.reached (s.vectorForm a k n need nums data) ≠ [] →
        (∀ l, l < 32 → ((s.reached (s.vectorForm a k n need nums data)).any fun x => x.lane == l) = s.active.getLsbD l) →
        P (s.stamp.issuedLs i (s.capture i) (s.vectorForm a k n need nums data) s.active)) →
      runs i n need nums data erase P := by
    intro i n need nums data erase P form e hf hb hp
    have vec := vectorForm_vector s a k n need nums data
    refine ⟨vector_empty vec hf e, fun _ => vector_misaligned vec hf e, ?_, ?_⟩
    · intro h ht ha key chk lands
      have opens := vector_opens (P := P) (erase := erase) (key := fun l _ => key l) (chk := fun l _ => chk l) vec hf e h ht ha
        (fun l hl hla => ⟨(lands l hl hla).1, vectorForm_lands (lands l hl hla).2⟩) hb hp
      rwa [vectorForm_accesses] at opens
    · intro h ht ring bad why m hm hbad hs low faults others
      refine vector_parks vec hf e h ht ring hm hbad hs low (fun l hl hlb => ?_)
        fun l hl hla => ⟨(others l hl hla).1, fun hgood p hp => ?_⟩
      · obtain ⟨hla, hno, hc⟩ := faults l hl hlb
        exact ⟨hla, vectorForm_fault hno, hc⟩
      · obtain ⟨key, chk, hreach⟩ := (others l hl hla).2 hgood
        exact ⟨key, chk, vectorForm_lands hreach p hp⟩
  have load : ∀ {i : Instr} {n : Nat}, exec i s = memory i (fun s => s.loadForm a k n) s → atomicKind i = none → loads i n :=
    fun e hi => run e rfl (by rw [orderRegion_plain _ _ hi]; rfl) fun _ _ => trivial
  have store : ∀ {i : Instr} {n m : Nat} {data : Nat → Nat}, exec i s = memory i (fun s => s.storeForm d a k n m) s →
      atomicKind i = none → s.Stores i 0 d m → (∀ l, s.regBytes d m l % 2 ^ (8 * n) = data l) → stores i n m data :=
    fun {i n m data} e hi st hd => run e (by rw [← funext hd]; rfl) (by rw [orderRegion_plain _ _ hi]; rfl) fun hr ha l hl =>
      flagsOf_store st hr (ha l hl) hl _
  have atomic : ∀ {i : Instr}, exec i s = memory i (fun s => s.atomForm d a k) s → (atomicKind i).isSome = true →
      s.Stores i c d (atomRegs c) → atomics i := by
    intro i e hi st
    refine run e rfl (by rw [orderRegion_eq]; rfl) fun hr ha => ⟨fun l hl => flagsOf_store st hr (ha l hl) hl _, ?_⟩
    rw [issuedLs_some (by rwa [stamp_reached])]
    exact orderRegion_race s.stamp.me hi (Nat.mod_lt _ (by decide))
  have whole : ∀ {n m : Nat}, 8 * n = 32 * m → ∀ l, s.regBytes d m l % 2 ^ (8 * n) = s.regBytes d m l := fun e l =>
    Nat.mod_eq_of_lt (e ▸ regBytes_lt s d _ l)
  have named : ∀ {gs : List (Nat × Nat)} {m : Nat}, (d, m) ∈ gs ++ [(d, m)] ++ [] := List.mem_append_left _ List.mem_concat_self
  have st8 := stores_of_shape s d 0 (i := .stB8 d a k la) (m := 1) rfl rfl rfl named
  have st16 := stores_of_shape s d 0 (i := .stB16 d a k la) (m := 1) rfl rfl rfl named
  have st32 := stores_of_shape s d 0 (i := .stB32 d a k la) (m := 1) rfl rfl rfl named
  have st64 := stores_of_shape s d 0 (i := .stB64 d a k la) (m := 2) rfl rfl rfl List.mem_concat_self
  have st128 := stores_of_shape s d 0 (i := .stB128 d a k la) (m := 4) rfl rfl rfl List.mem_concat_self
  exact ⟨load rfl rfl, load rfl rfl, load rfl rfl, load rfl rfl, load rfl rfl, load rfl rfl, load rfl rfl,
    store rfl rfl st8 fun l => by rw [regBytes_one], store rfl rfl st16 fun l => by rw [regBytes_one],
    store rfl rfl st32 fun l => by rw [whole rfl, regBytes_one], store rfl rfl st64 fun l => by rw [whole rfl, regBytes_two],
    store rfl rfl st128 fun l => by rw [whole rfl, regBytes_four],
    atomic rfl rfl (stores_atom s d a k la), atomic rfl rfl (stores_red s d a k la)⟩

end Sys2Proof.Machine
end

section
/-!
SYNC and EXECW: what settling every fragment of a group leaves alone (R29, R108, R109, R130).
-/
namespace Sys2Proof.Machine

variable {s : State}

/-- Settling every fragment changes no register, and nothing outside the group. -/
theorem settleAll_shifts (s : State) : Shifts s s.settleAll := by
  have each : ∀ (fs : List Frag) (t : State), Shifts t (fs.foldl (fun (t : State) f => t.arrive f.id joinFuel) t) := by
    intro fs
    induction fs with
    | nil => exact .refl
    | cons f rest ih => exact fun t => (arrive_shifts joinFuel t f.id).trans (ih _)
  unfold State.settleAll
  split
  · exact .refl s
  · exact ((gather_shifts s).trans (each _ _)).trans (arrive_shifts _ _ _)

/-- A frame holds on past what moves fragments and joins alone. -/
theorem Frame.shift {u t : State} (h : Frame id s u) (w : Shifts u t) : Frame id s t := by
  obtain ⟨⟨e, hg, ho⟩, hm⟩ := h
  obtain ⟨we, wm, wo⟩ := w
  have g : t.groups = u.groups := by rw [we]
  exact ⟨⟨we.trans (by rw [g, e]), g ▸ hg, wo.trans ho⟩, wm.trans hm⟩

/-- The innermost open record is given its address, one that has an address keeps it (R109). -/
def State.synced (s : State) (goal : Option Addr) : State :=
  match s.me.inner s.fr.owned with
  | some j => if j.addr.isNone then s.modMe fun g => g.modJoin j fun x => { x with addr := goal } else s
  | none => s

theorem synced_eq (s : State) (goal : Option Addr) :
    s.synced goal = { s with me := { s.me with joins := (s.synced goal).me.joins } } := by
  unfold State.synced
  split
  · split <;> rfl
  · rfl

theorem synced_open {j : Join} (goal : Option Addr) (hj : s.me.inner s.fr.owned = some j) (ha : j.addr = none) :
    (s.synced goal).me.joins = s.me.joins.map fun x => if x.same j then { x with addr := goal } else x := by
  unfold State.synced
  simp only [hj, ha, Option.isNone_none, if_true]
  rfl

theorem synced_addressed {j : Join} (goal : Option Addr) (hj : s.me.inner s.fr.owned = some j) (ha : j.addr ≠ none) :
    s.synced goal = s := by
  unfold State.synced
  simp only [hj, Option.isNone_iff_eq_none, ha, if_false]

theorem synced_outermost (goal : Option Addr) (hj : s.me.inner s.fr.owned = none) : s.synced goal = s := by
  unfold State.synced
  simp only [hj]

theorem sync_next (rcv : Nat) (h : Free (.sync rcv) s) :
    exec (.sync rcv) s = .next (s.stamp.synced (joinTarget s.pc rcv)).advance.settleAll.settleArrival := by
  rw [exec_sync]
  exact issue_free h rfl

/-- The fragment with the lanes that EXECW leaves it, its CLR with those that it takes out (R29, R130). -/
def State.masked (s : State) (w : Mask) : State :=
  s.modFr fun f =>
    { f with exec := w &&& f.owned, clr := (f.clr ||| (f.exec &&& ~~~(w &&& f.owned))) &&& ~~~(w &&& f.owned) }

theorem execw_next (a : Nat) (h : Free (.execw a) s) :
    exec (.execw a) s = .next (if s.rdS a &&& s.fr.owned = 0 then (s.stamp.masked (s.rdS a)).advance.emptied s.nextPc
      else (s.stamp.masked (s.rdS a)).advance).settleArrival := by
  have pc : (s.stamp.masked (s.rdS a)).advance.fr.pc = s.nextPc := by rw [advance_eq]; rfl
  rw [← pc, exec_execw]
  exact issue_free h rfl

theorem masked_clr (s : State) (w : Mask) (l : Nat) (hl : l < 32) :
    (s.masked w).fr.clr.getLsbD l = (s.fr.owned.getLsbD l && !w.getLsbD l) := by
  simp only [State.masked, modFr_fr, Frag.owned, BitVec.getLsbD_and, BitVec.getLsbD_or, BitVec.getLsbD_not, hl, decide_true, Bool.true_and]
  cases s.fr.exec.getLsbD l <;> cases s.fr.clr.getLsbD l <;> cases w.getLsbD l <;> rfl

theorem masked_none (s : State) {w : Mask} (h : w &&& s.fr.owned = 0) :
    (s.masked w).fr.exec = 0 ∧ (s.masked w).fr.clr = s.fr.exec ||| s.fr.clr := by
  simp only [State.masked, modFr_fr, h]
  exact ⟨trivial, by rw [mask_without_none, mask_without_none, BitVec.or_comm]⟩

/-- Settles O27: SYNC changes the joins alone before every fragment settles, and EXECW the lanes of its fragment. -/
theorem lanesAndJoins : Obligations.LanesAndJoins := by
  intro s rcv a
  refine ⟨fun h => ?_, fun h hne => ?_, fun h he => ?_⟩
  · have keeps := synced_eq s.stamp (joinTarget s.pc rcv)
    refine ⟨_, sync_next rcv h, fragKept_advance (by rw [keeps]) (by rw [keeps]; rfl),
      ((frame_advance (by rw [keeps]) (by rw [keeps]; rfl)).shift (settleAll_shifts _)).shift (settleArrival_shifts _),
      fun j hj ha => ?_, fun j hj ha => ?_, fun hj => ?_⟩
    all_goals rw [advance_me]
    · exact synced_open _ hj ha
    · rw [synced_addressed (s := s.stamp) _ hj ha]; rfl
    · rw [synced_outermost (s := s.stamp) _ hj]; rfl
  · refine ⟨(s.stamp.masked (s.rdS a)).advance, ?_, ?_⟩
    · rw [execw_next a h]; exact congrArg _ (congrArg _ (if_neg hne))
    · rw [advance_fr]
      exact ⟨rfl, masked_clr s.stamp _, nextPc_of_stamp rfl rfl, rfl, rfl,
        (frame_advance (t := s.stamp.masked (s.rdS a)) rfl rfl).shift (settleArrival_shifts _)⟩
  · refine ⟨(s.stamp.masked (s.rdS a)).advance, ?_, ?_⟩
    · rw [execw_next a h]; exact congrArg _ (congrArg _ (if_pos he))
    · rw [advance_fr]
      exact masked_none s.stamp he
end Sys2Proof.Machine
end

section
/-!
SUPPORT. Records of 1 + D words (R190, R191), and accesses of one word for the whole fragment (R142, R213).
-/
namespace Sys2Proof.Machine

variable {s : State} {i : Instr} {cap : Captured}

/-! ## Tangent records -/

/-- A vector access of a lane's record of 1 + D words (R190, R191). -/
def State.recordForm (s : State) (a k : Nat) (need : Need) (data : Nat → Nat → Nat) : MemForm :=
  { lanes := s.active, one := false, addr := s.laneAddr a k, align := 4
    pieces := fun l => (List.range (s.d + 1)).map fun j => ⟨j, 4 * j, 4, data l j⟩, need := need, nums := [] }

section Record
variable {a k l : Nat} {need : Need} {data : Nat → Nat → Nat}

theorem recordForm_vector (s : State) (a k : Nat) (need : Need) (data : Nat → Nat → Nat) :
    (s.recordForm a k need data).Vector s a k 4 := by
  refine ⟨rfl, rfl, rfl, rfl, fun _ => ?_⟩
  rw [← List.length_pos_iff]
  simp [State.recordForm]

theorem recordForm_lands {key : Nat → Nat} {chk : Nat → Bool}
    (h : ∀ j, j ≤ s.d → s.names need ((s.laneAddr a k l + 4 * j) % 2 ^ 64) 4 = .ok (key j) (chk j)) :
    ∀ p ∈ (s.recordForm a k need data).pieces l, s.Lands (s.recordForm a k need data) l p (key p.part) (chk p.part) := fun p hp => by
  obtain ⟨j, hj, rfl⟩ := List.mem_map.1 hp
  exact ⟨h j (Nat.le_of_lt_succ (List.mem_range.1 hj)), by simp [State.recordForm, floatAtomic]⟩

theorem recordForm_some_lands
    (h : ∀ j, j ≤ s.d → ∃ key chk, s.names need ((s.laneAddr a k l + 4 * j) % 2 ^ 64) 4 = .ok key chk) :
    ∀ p ∈ (s.recordForm a k need data).pieces l, ∃ key chk, s.Lands (s.recordForm a k need data) l p key chk := fun p hp => by
  obtain ⟨j, hj, rfl⟩ := List.mem_map.1 hp
  obtain ⟨key, chk, e⟩ := h j (Nat.le_of_lt_succ (List.mem_range.1 hj))
  exact ⟨key, chk, e, by simp [State.recordForm, floatAtomic]⟩

/-- The first word of a record that does not reach memory is the one that faults. -/
theorem recordForm_fault {first : Nat} {why : NoAccess} (hf : first ≤ s.d)
    (h : s.names need ((s.laneAddr a k l + 4 * first) % 2 ^ 64) 4 = .no why)
    (before : ∀ j, j < first → ∃ key chk, s.names need ((s.laneAddr a k l + 4 * j) % 2 ^ 64) 4 = .ok key chk) :
    s.place (s.recordForm a k need data) l ((s.recordForm a k need data).pieces l)
      = .fault why ((s.laneAddr a k l + 4 * first) % 2 ^ 64) := by
  obtain ⟨pre, post, e⟩ := List.append_of_mem (List.mem_range.2 (Nat.lt_succ_of_le hf))
  have sorted := List.pairwise_lt_range (n := s.d + 1)
  rw [e] at sorted
  have pieces : (s.recordForm a k need data).pieces l = pre.map (fun j => ⟨j, 4 * j, 4, data l j⟩)
      ++ ⟨first, 4 * first, 4, data l first⟩ :: post.map fun j => ⟨j, 4 * j, 4, data l j⟩ := by
    simp only [State.recordForm, e, List.map_append, List.map_cons]
  rw [pieces]
  refine place_fault (fun q hq => ?_) h
  obtain ⟨j, hj, rfl⟩ := List.mem_map.1 hq
  have lt : j < first := (List.pairwise_append.1 sorted).2.2 j hj first (List.mem_cons_self ..)
  obtain ⟨key, chk, hk⟩ := before j lt
  exact ⟨key, chk, hk, by simp [State.recordForm, floatAtomic]⟩

theorem recordForm_accesses (ls : List Nat) (key : Nat → Nat → Nat) (chk : Nat → Nat → Bool) :
    (ls.flatMap fun l => ((s.recordForm a k need data).pieces l).map fun p =>
      (s.recordForm a k need data).access l p (key l p.part) (chk l p.part)) =
    ls.flatMap fun l => (List.range (s.d + 1)).map fun j =>
      { lane := l, part := j, va := (s.laneAddr a k l + 4 * j) % 2 ^ 64, pa := key l j, size := 4, data := data l j, chk := chk l j } := by
  congr 1
  funext l
  exact List.map_map ..

end Record

/-! ## Accesses of one word for the whole fragment -/

/-- An access of one word that stands for every lane of the fragment (R142, R213). -/
def State.wordForm (s : State) (va : Nat) (need : Need) (data : Nat) : MemForm :=
  { lanes := s.fr.exec, one := true, addr := fun _ => va, align := 4, pieces := fun _ => [⟨0, 0, 4, data⟩], need := need, nums := [] }

section Word
variable {va data : Nat} {need : Need}

theorem wordForm_va (hv : va < 2 ^ 64) (l : Nat) : (s.wordForm va need data).va l ⟨0, 0, 4, data⟩ = va := Nat.mod_eq_of_lt hv

theorem wordForm_lands {key : Nat} {chk : Bool} (hv : va < 2 ^ 64)
    (h : s.names need va 4 = .ok key chk) :
    ∀ l ∈ (s.wordForm va need data).acting, ∀ p ∈ (s.wordForm va need data).pieces l,
      s.Lands (s.wordForm va need data) l p key chk := by
  intro l _ p hp
  obtain rfl := List.mem_singleton.1 hp
  refine ⟨?_, by simp [State.wordForm, floatAtomic]⟩
  rw [State.reach?, wordForm_va hv]
  exact h

theorem word_misaligned {form : State → MemForm} (h : Free i s) (e : exec i s = memory i form s)
    (hf : form s.stamp = s.wordForm va need data) (hn : va % 4 ≠ 0) :
    exec i s = .next (s.trapAt i { cause := 8, sub := 0, addr := va, race := [], lanes := s.fr.exec }) := by
  have acting : (s.wordForm va need data).acting = [firstLane s.fr.exec] := rfl
  have found : (s.wordForm va need data).acting.find? (fun l => (s.wordForm va need data).addr l % (s.wordForm va need data).align != 0)
      = some (firstLane s.fr.exec) := by
    rw [acting]
    exact List.find?_cons_of_pos (bne_iff_ne.2 hn)
  rw [e, memory_misaligned h hf found]
  rfl

theorem word_starts {form : State → MemForm} (h : Free i s) (e : exec i s = memory i form s) (hf : form s.stamp = s.wordForm va need data)
    (ht : ∀ x, s.me.tx.st ≠ .opened x) (hn : va % 4 = 0) (hw : s.formWaits (s.wordForm va need data) = false) :
    exec i s = .next (s.stamp.startLs i (s.capture i) (s.wordForm va need data)).settleArrival := by
  rw [e]
  exact memory_starts h hf (fun _ _ => hn) (.inl rfl) hw ht

theorem word_opens {key : Nat} {chk : Bool} (hv : va < 2 ^ 64) (hi : atomicKind i = none) (hc : cap.instr = i)
    (h : s.names need va 4 = .ok key chk)
    (e : exec i s = .next (s.stamp.startLs i cap (s.wordForm va need data)).settleArrival) :
    Opens i s s.fr.exec []
      [{ lane := firstLane s.fr.exec, part := 0, va := va, pa := key, size := 4, data := data, chk := chk }] := by
  have opens := opensAs_of_lands (P := fun _ => True) (erase := id) (key := fun _ _ => key) (chk := fun _ _ => chk)
    (wordForm_lands (data := data) hv h) e hc ⟨firstLane s.fr.exec, List.mem_singleton.2 rfl, List.cons_ne_nil _ _⟩
    (by rw [orderRegion_plain _ _ hi]; rfl) trivial
  have access : (s.wordForm va need data).access (firstLane s.fr.exec) ⟨0, 0, 4, data⟩ key chk =
      { lane := firstLane s.fr.exec, part := 0, va := va, pa := key, size := 4, data := data, chk := chk } := by
    rw [MemForm.access, wordForm_va hv]
  rw [← access]
  exact opens

theorem wordForm_unreached {why : NoAccess} (hv : va < 2 ^ 64)
    (h : s.names need va 4 = .no why) :
    s.unreached (s.wordForm va need data) = [(firstLane s.fr.exec, va, some why, 0)] ∧ s.reached (s.wordForm va need data) = [] := by
  have fault : ∀ l, s.place (s.wordForm va need data) l ((s.wordForm va need data).pieces l) = .fault why va := fun l => by
    have e : s.reach? (s.wordForm va need data) l ⟨0, 0, 4, data⟩ = .no why := by
      rw [State.reach?, wordForm_va hv]
      exact h
    have := place_fault (pre := []) (post := []) (by simp) e
    rwa [wordForm_va hv] at this
  refine ⟨unreached_faults (f := s.wordForm va need data) (bad := fun _ => true) (why := fun _ => why) (va := fun _ => va)
    (fun l _ _ => fault l) (by simp), List.eq_nil_iff_forall_not_mem.2 fun x hx => ?_⟩
  obtain ⟨l, -, xs, e, -⟩ := mem_reached.1 hx
  rw [fault l] at e
  cases e

theorem wordForm_formWaits {why : NoAccess} (hv : va < 2 ^ 64)
    (h : s.names need va 4 = .no why) (hc : why.cause ≠ 0) :
    s.formWaits (s.wordForm va need data) = false := by
  refine formWaits_of_causes fun b hb => ?_
  rw [(wordForm_unreached hv h).1] at hb
  obtain rfl := List.mem_singleton.1 hb
  exact ⟨why, rfl, hc⟩

theorem word_parks {why : NoAccess} (h : Free i s) (hv : va < 2 ^ 64) (hc : cap.instr = i) (ring : s.ringInUse = true)
    (hw : s.names need va 4 = .no why) (hs : why.service = true)
    (e : exec i s = .next (s.stamp.startLs i cap (s.wordForm va need data)).settleArrival) :
    Parks i s s.fr.exec s.fr.exec why.cause va need.wr := by
  obtain ⟨hu, hr⟩ := wordForm_unreached (data := data) hv hw
  have none_left : s.fr.exec &&& ~~~s.fr.exec = 0 := BitVec.and_not_self ..
  refine parks_of_startLs (l := firstLane s.fr.exec) (n := 0) h.1 ring e hc ?_ hs ?_ ?_ ?_
  · rw [hu]; rfl
  · rw [hu]; rfl
  · exact ⟨fun _ => none_left, fun _ => hr⟩
  · rw [hr]; simp

end Word
end Sys2Proof.Machine
end

section
/-!
MARM, PRF and the statement of the tangent records, the scalar accesses and both (R142, R190 to R192, R213).
-/
namespace Sys2Proof.Machine

variable {s : State} {i : Instr}

/-! ## MARM (R213) -/

/-- What MARM captures: the one address serves every lane that parks. -/
def State.marmCapture (s : State) (a k la : Nat) : Captured :=
  let cap := s.capture (.marm a k la)
  let word := s.rdV a (firstLane s.active)
  { cap with vec := cap.vec.map fun kw => if kw.1 / 32 = vkey a 0 0 / 32 then (kw.1, word) else kw }

/-- With no active lane the watch is disarmed, and MARMs still to perform arm nothing any more. -/
def State.disarmed (s : State) : State :=
  { s.modMe fun g => { g with watch := none } with
    ops := s.ops.map fun (o : Op) => if o.gs == s.me.gs && o.arms then { o with nums := [1] } else o }

theorem disarmed_ops (s : State) :
    (s.disarmed.ops.map fun (o : Op) => { o with nums := [] }) = s.ops.map fun (o : Op) => { o with nums := [] } := by
  simp only [State.disarmed, List.map_map]
  congr 1
  funext o
  simp only [Function.comp_apply]
  split <;> rfl

theorem disarmed_marms (s : State) :
    ∀ o ∈ s.disarmed.ops, o.gs = s.me.gs → (∃ a k la, o.cap.instr = .marm a k la) → o.nums ≠ [] := by
  intro o ho hgs ⟨a, k, la, hi⟩
  obtain ⟨q, -, rfl⟩ := List.mem_map.1 ho
  by_cases c : (q.gs == s.me.gs && q.arms) = true
  · rw [if_pos c]; exact List.cons_ne_nil _ _
  · rw [if_neg c] at hgs hi
    exact absurd (by simp [hgs, Op.arms, hi]) c

theorem marm_disarms (a k la : Nat) (h : Free (.marm a k la) s) (ha : s.active = 0) :
    exec (.marm a k la) s = .next s.stamp.disarmed.advance.settleArrival := by
  rw [exec_marm]
  refine issue_free h ?_
  simp only [stamp_active, ha, if_true]
  rfl

theorem marm_misaligned (a k la : Nat) (h : Free (.marm a k la) s) (ha : s.active ≠ 0)
    (hn : s.laneAddr a k (firstLane s.active) % 4 ≠ 0) :
    exec (.marm a k la) s = .next (s.trapAt (.marm a k la)
      { cause := 8, sub := 0, addr := s.laneAddr a k (firstLane s.active), race := [], lanes := s.active }) := by
  rw [exec_marm]
  unfold execMarm issue
  simp only [h.1, h.2, Bool.not_true, Bool.false_eq_true, if_false, stamp_active, ha, stamp_laneAddr, hn, ne_eq, not_false_eq_true, if_true]
  rfl

theorem marm_starts (a k la : Nat) (h : Free (.marm a k la) s) (ha : s.active ≠ 0) (hn : s.laneAddr a k (firstLane s.active) % 4 = 0)
    (hw : s.formWaits (s.wordForm (s.laneAddr a k (firstLane s.active)) Need.load 0) = false) :
    exec (.marm a k la) s = .next (s.stamp.startLs (.marm a k la) (s.stamp.marmCapture a k la)
      (s.wordForm (s.laneAddr a k (firstLane s.active)) Need.load 0)).settleArrival := by
  rw [exec_marm]
  refine issue_free h ?_
  have hw' : s.stamp.formWaits (s.wordForm (s.laneAddr a k (firstLane s.active)) Need.load 0) = false := by rwa [stamp_formWaits]
  simp only [stamp_active, ha, if_false, stamp_laneAddr, hn, ne_eq, not_true_eq_false]
  exact if_neg (by rw [Bool.not_eq_true]; exact hw')

/-! ## PRF (R192, R403) -/

theorem accept_keeps {b kind place limit n : Nat} {t : State} (h : s.accept b kind place limit n = some t) :
    ∃ c w, t = { s with charges := c, window := w } := by
  unfold State.accept at h
  simp only at h
  split at h
  · exact ⟨_, _, (Option.some.inj h).symm⟩
  · cases h

theorem stamp_accept (s : State) (b kind place limit n : Nat) :
    s.stamp.accept b kind place limit n = (s.accept b kind place limit n).map State.stamp := by
  unfold State.accept
  have charged : s.stamp.charged b kind place = s.charged b kind place := rfl
  simp only [charged]
  split <;> rfl

theorem rejoin_team (g : Group) (x : Frag) : (g.rejoin x).team = g.team := by
  unfold Group.rejoin; split <;> rfl

theorem budgetOf_me (h : s.live = true) :
    s.budgetOf s.me.gs = ((s.team? s.me.team).map (·.budget)).getD 0 := by
  unfold State.budgetOf
  rw [anyGroup?_me h, Option.bind_some, rejoin_team]
  cases s.team? s.me.team <;> rfl

theorem stamp_acceptMem (h : s.live = true) (keys : List Nat) :
    s.stamp.acceptMem s.me.gs keys = (s.acceptMem s.me.gs keys).map State.stamp := by
  have budget : s.stamp.budgetOf s.me.gs = s.budgetOf s.me.gs := (budgetOf_me (s := s.stamp) h).trans (budgetOf_me h).symm
  have waits : s.stamp.stackWaits = s.stackWaits := rfl
  unfold State.acceptMem State.acceptFrom
  rw [budget, waits]
  split
  · rfl
  · exact stamp_accept ..

theorem acceptMem_keeps {gs : Nat} {keys : List Nat} {t : State} (h : s.acceptMem gs keys = some t) :
    ∃ c w, t = { s with charges := c, window := w } := by
  unfold State.acceptMem State.acceptFrom at h
  split at h
  · cases h
  · exact accept_keeps h

theorem prefetch_none {a k l : Nat} {ls : List Nat} (h : s.prefetchKey a k l = none) :
    s.prefetch a k (l :: ls) = s.prefetch a k ls := by
  simp only [State.prefetch, h]

theorem prefetch_waits {a k l key : Nat} {ls : List Nat} (h : s.prefetchKey a k l = some key) (ha : s.acceptMem s.me.gs [key] = none) :
    s.prefetch a k (l :: ls) = ((s.prefetch a k ls).1, true) := by
  simp only [State.prefetch, h, ha]

theorem prefetch_fills {a k l key : Nat} {ls : List Nat} {t : State} (h : s.prefetchKey a k l = some key)
    (ha : s.acceptMem s.me.gs [key] = some t) :
    s.prefetch a k (l :: ls) = (t.fillL1 (coreOf t.me.gs) key (t.rdBytes (key / 32 * 32) 32)).prefetch a k ls := by
  simp only [State.prefetch, h, ha]

/-- PRF fills L1, and its requests are charged (R192, R403). -/
theorem prefetch_keeps (a k : Nat) (ls : List Nat) (s : State) :
    ∃ l1 n c w, (s.prefetch a k ls).1 = { s with l1 := l1, fills := n, charges := c, window := w } := by
  induction ls generalizing s with
  | nil => exact ⟨_, _, _, _, rfl⟩
  | cons l rest ih =>
    cases hk : s.prefetchKey a k l with
    | none => rw [prefetch_none hk]; exact ih s
    | some key =>
      cases ha : s.acceptMem s.me.gs [key] with
      | none => rw [prefetch_waits hk ha]; exact ih s
      | some t =>
        obtain ⟨c, w, rfl⟩ := acceptMem_keeps ha
        rw [prefetch_fills hk ha]
        obtain ⟨l1, n, c', w', e⟩ := ih _
        exact ⟨l1, n, c', w', e⟩

theorem stamp_prefetchKey (s : State) (a k l : Nat) : s.stamp.prefetchKey a k l = s.prefetchKey a k l := by
  unfold State.prefetchKey
  rw [stamp_resolve]
  rfl

/-- The bookkeeping of an issue and PRF's requests do not meet. -/
theorem stamp_prefetch (a k : Nat) (ls : List Nat) (s : State) (h : s.live = true) :
    s.stamp.prefetch a k ls = ((s.prefetch a k ls).1.stamp, (s.prefetch a k ls).2) := by
  induction ls generalizing s with
  | nil => rfl
  | cons l rest ih =>
    have key' := stamp_prefetchKey s a k l
    cases hk : s.prefetchKey a k l with
    | none => rw [prefetch_none hk, prefetch_none (key'.trans hk)]; exact ih s h
    | some key =>
      have accept := stamp_acceptMem h [key]
      cases ha : s.acceptMem s.me.gs [key] with
      | none =>
        rw [ha] at accept
        rw [prefetch_waits hk ha, prefetch_waits (key'.trans hk) accept, ih s h]
      | some t =>
        rw [ha] at accept
        rw [prefetch_fills hk ha, prefetch_fills (key'.trans hk) accept]
        obtain ⟨c, w, e⟩ := acceptMem_keeps ha
        have live : t.live = true := by rw [e]; exact h
        exact ih (t.fillL1 (coreOf t.me.gs) key (t.rdBytes (key / 32 * 32) 32)) live

theorem prf_transaction (a k la : Nat) (h : Free (.prf a k la) s) (ht : ∃ x, s.me.tx.st = .opened x) :
    exec (.prf a k la) s = .next s.stamp.advance.settleArrival := by
  obtain ⟨x, hx⟩ := ht
  rw [exec_prf]
  refine issue_free h ?_
  have hx' : s.stamp.me.tx.st = .opened x := hx
  simp only [hx']

/-- PRF's effect outside a transaction, and where one of its requests waits. -/
theorem prf_effect (a k la : Nat) (h : Free (.prf a k la) s) (ht : ∀ x, s.me.tx.st ≠ .opened x) :
    ((s.prefetch a k (lanesOf s.active)).2 = true → exec (.prf a k la) s = .next (s.prefetch a k (lanesOf s.active)).1)
    ∧ ((s.prefetch a k (lanesOf s.active)).2 = false →
        exec (.prf a k la) s = .next (s.prefetch a k (lanesOf s.active)).1.stamp.advance.settleArrival) := by
  have pre := stamp_prefetch a k (lanesOf s.active) s h.1
  rw [exec_prf]
  refine ⟨fun hw => issue_waits h ?_, fun hw => issue_free h ?_⟩
  all_goals
    split
    · exact absurd ‹_› (ht _)
    · simp only [stamp_active, pre, hw, if_true, Bool.false_eq_true, if_false]

/-- Arrival at a join after PRF: L1 and the charges are as it left them. -/
theorem settleArrival_prefetched {u : State}
    (h : u = { s with
      me := u.me, fr := u.fr, groups := u.groups, l1 := u.l1, fills := u.fills, charges := u.charges, window := u.window }) :
    u.settleArrival = { s with
      me := u.settleArrival.me, fr := u.settleArrival.fr, groups := u.settleArrival.groups, ops := u.settleArrival.ops
      l1 := u.settleArrival.l1, fills := u.settleArrival.fills, charges := u.settleArrival.charges
      window := u.settleArrival.window } := by
  have e := (settleArrival_shifts u).1
  generalize u.settleArrival = t at e ⊢
  rw [h] at e
  rw [e]

/-- Settles O31: LDT and STT are vector accesses of a record, SLD, SST and MARM accesses of one word for the whole fragment; PRF's requests
touch L1 and the charges alone. -/
theorem tangentMemory : Obligations.TangentMemory := by
  refine ⟨?_, ?_, ?_⟩
  · intro s d a k la at' runs
    have run : ∀ {i : Instr} {need : Need} {data : Nat → Nat → Nat} {form : State → MemForm}, exec i s = memory i form s →
        form s.stamp = s.recordForm a k need data → atomicKind i = none → runs i need data := by
      intro i need data form e hf hi
      have vec := recordForm_vector s a k need data
      refine ⟨vector_empty vec hf e, fun _ => vector_misaligned vec hf e, ?_, ?_⟩
      · intro h ht ha key chk lands
        have opens := vector_opens (P := fun _ => True) (erase := id) (key := fun l p => key l p.part) (chk := fun l p => chk l p.part)
          vec hf e h ht ha (fun l hl hla => ⟨(lands l hl hla).1, recordForm_lands (lands l hl hla).2⟩)
          (by rw [orderRegion_plain _ _ hi]; rfl) fun _ _ => trivial
        rwa [recordForm_accesses] at opens
      · intro h ht ring bad why first m hm hbad hs low faults others
        refine vector_parks (va := fun l => (s.laneAddr a k l + 4 * first l) % 2 ^ 64) vec hf e h ht ring hm hbad hs low
          (fun l hl hlb => ?_) fun l hl hla => ⟨(others l hl hla).1, fun hgood => recordForm_some_lands ((others l hl hla).2 hgood)⟩
        obtain ⟨hla, hfirst, hno, hc, before⟩ := faults l hl hlb
        exact ⟨hla, recordForm_fault hfirst hno before, hc⟩
    exact ⟨run (form := fun t => t.recordForm a k Need.load fun _ _ => 0) rfl rfl rfl,
      run (form := fun t => t.recordForm a k Need.store fun l j => (t.rdVP d j l).toNat) rfl rfl rfl⟩
  · intro s d a k la runs near
    have run : ∀ {i : Instr} {need : Need} {va data : Nat} {lanes : Mask} {cap : Captured}, atomicKind i = none → cap.instr = i →
        va < 2 ^ 64 →
        (Free i s → va % 4 ≠ 0 → exec i s = .next (s.trapAt i { cause := 8, sub := 0, addr := va, race := [], lanes := lanes })) →
        (Free i s → (∀ x, s.me.tx.st ≠ .opened x) → va % 4 = 0 → s.formWaits (s.wordForm va need data) = false →
          exec i s = .next (s.stamp.startLs i cap (s.wordForm va need data)).settleArrival) →
        runs i need va data lanes := by
      intro i need va data lanes cap hi hc hv trap start
      refine ⟨trap, fun h ht ha key chk ok => ?_, fun h ht ha ring why no hcause hs => ?_⟩
      · exact word_opens hv hi hc ok (start h ht ha (formWaits_of_lands (wordForm_lands hv ok)))
      · exact word_parks h hv hc ring no hs (start h ht ha (wordForm_formWaits hv no hcause))
    have near_lt : near < 2 ^ 64 := BitVec.isLt _
    have scalar : ∀ {i : Instr} {need : Need} {data : Nat} {form : State → MemForm}, exec i s = memory i form s →
        form s.stamp = s.wordForm near need data → atomicKind i = none → runs i need near data s.fr.exec := fun e hf hi =>
      run hi rfl near_lt (fun h hn => word_misaligned h e hf hn) fun h ht hn hw => word_starts h e hf ht hn hw
    refine ⟨scalar (form := fun t => t.wordForm (t.rdS64 k + BitVec.ofNat 64 (4 * a)).toNat Need.load 0) rfl rfl rfl,
      scalar (form := fun t => t.wordForm (t.rdS64 k + BitVec.ofNat 64 (4 * a)).toNat Need.store (t.rdSd d).toNat) rfl rfl rfl,
      fun ha => run rfl rfl (laneAddr_lt ..) (fun h hn => marm_misaligned a k la h ha hn) fun h _ hn hw => marm_starts a k la h ha hn hw,
      fun h ha => ⟨_, marm_disarms a k la h ha, fragKept_advance rfl rfl, ?_⟩⟩
    rw [advance_eq]
    exact ⟨rfl, rfl, rfl, rfl, rfl, disarmed_ops s.stamp, disarmed_marms s.stamp⟩
  · intro s a k la i asks
    obtain ⟨l1, n, c, w, e⟩ := prefetch_keeps a k (lanesOf s.active) s
    refine ⟨fun ht h => completes_of_advance h (prf_transaction a k la h ht), fun h ht => (prf_effect a k la h ht).1,
      fun h ht hw => ?_, ?_⟩
    · have next := (prf_effect a k la h ht).2 hw
      rw [e] at next
      refine ⟨_, next, fragKept_advance rfl rfl, ?_, ?_⟩
      · exact settleArrival_prefetched (by rw [advance_eq]; rfl)
      · rw [(settleArrival_shifts _).2.1, advance_me]; rfl
    · show (s.prefetch a k (lanesOf s.active)).1 = _
      rw [e]

end Sys2Proof.Machine
end
